-- ==== Sys2Proof/Word.lean ====
section
/-! DEFINITION. The two word types of the block: the byte of the SPI stream and of DATA, and the 32-bit word of the
host's data path (00_scope.md R9, R10). -/

namespace Sys2Proof

/-- An 8-bit unsigned byte (00_scope.md R10). -/
abbrev Byte := BitVec 8

/-- A 32-bit word of the host data path (00_scope.md R9). -/
abbrev Word := BitVec 32

end Sys2Proof
end

