-- ==== Sys2Proof/Syntax.lean ====
section
/-! DEFINITION. The instructions: one constructor for each of the twelve rows of spec/opcode_table.json, in the table's
order, in its three formats. -/

namespace Sys2Proof

/-- The rows of spec/opcode_table.json. The first four are operation words the host writes to CTRL (30_encoding.md R110),
the next six are command packets (R100, R115), the last two are bytes the block recognises (R104, R105). -/
inductive Instr where
  /-- NOP, operation word 0x00000000 (42_bus_clock_and_access.md R200). -/
  | nop
  /-- SEND_CMD, operation word 0x00000001 (40_command_framer.md R140). -/
  | sendCmd
  /-- READ_BLOCK, operation word 0x00000002 (41_block_reader.md R170). -/
  | readBlock
  /-- CLOCK, operation word 0x00000003 (42_bus_clock_and_access.md R201). -/
  | clock
  /-- SD_CMD (any index): the packet of an index, an argument and a CRC byte (30_encoding.md R100). -/
  | sdCmd (index : BitVec 6) (arg : BitVec 32) (crc : BitVec 8)
  /-- CMD0 (GO_IDLE): 40 00 00 00 00 95 (30_encoding.md R115). -/
  | cmd0
  /-- CMD8 (CHECK_VOLTAGE): 48 00 00 01 AA 87 (30_encoding.md R115). -/
  | cmd8
  /-- CMD55 (APP_CMD): 77 00 00 00 00 65 (30_encoding.md R115). -/
  | cmd55
  /-- ACMD41: 69 40 00 00 00 77 (30_encoding.md R115). -/
  | acmd41
  /-- CMD56: 78 and an argument and a CRC byte the source does not give (30_encoding.md R115, 91 N7). -/
  | cmd56 (arg : BitVec 32) (crc : BitVec 8)
  /-- R1 (valid response byte): b[7] = 0, b[6:0] not decoded by the block (30_encoding.md R104). -/
  | r1 (status : BitVec 7)
  /-- START_TOKEN: the byte 0xFE (30_encoding.md R105). -/
  | startToken
  deriving DecidableEq, Repr

end Sys2Proof
end

