-- ==== Sys2Proof/WellFormed.lean ====
section
/-! DEFINITION. Which instructions are the decoder's own reading of their words: the generic packet row of the opcode
table overlaps its five named rows, and a word of a named row is that row's (log 10). Every other bound is in a type. -/

namespace Sys2Proof

/-- The packet of this index, argument and CRC byte belongs to one of the five named packet rows of 30_encoding.md R115. -/
def namedPacket (index : BitVec 6) (arg : BitVec 32) (crc : BitVec 8) : Bool :=
  (index == 0#6 && arg == 0#32 && crc == 0x95#8) ||
  (index == 8#6 && arg == 0x1AA#32 && crc == 0x87#8) ||
  (index == 55#6 && arg == 0#32 && crc == 0x65#8) ||
  (index == 41#6 && arg == 0x40000000#32 && crc == 0x77#8) ||
  index == 56#6

/-- Well-formed: the generic packet is not one that a named row has. DESIGN CHOICE, safe (log 10). -/
def Instr.wellFormed : Instr → Bool
  | .sdCmd index arg crc => !namedPacket index arg crc
  | .nop => true
  | .sendCmd => true
  | .readBlock => true
  | .clock => true
  | .cmd0 => true
  | .cmd8 => true
  | .cmd55 => true
  | .acmd41 => true
  | .cmd56 _ _ => true
  | .r1 _ => true
  | .startToken => true

end Sys2Proof
end

