-- ==== Sys2Proof/Decode.lean ====
section
/-! DEFINITION. From words to instructions and back (30_encoding.md R100 to R105, R110, R112). An instruction word comes from
one of three places, each of its own width: the CTRL register, a command packet, a byte of the card. -/

namespace Sys2Proof

/-- An instruction word and the place it stands in: the 32-bit word written to CTRL (30_encoding.md R110), the 48-bit
command packet with byte 0 in bits [47:40] (R100), the byte received in an exchange (R104, R105). -/
inductive Wire where
  | ctrl (w : BitVec 32)
  | packet (p : BitVec 48)
  | card (b : BitVec 8)
  deriving DecidableEq, Repr

/-- Why a word is no instruction. -/
inductive DecodeReject where
  /-- W[31:2] ≠ 0 in an operation word (30_encoding.md R112(a)). -/
  | ctrlReserved
  /-- bits [47:46] are not 01, so the 48 bits are no command packet (30_encoding.md R100, R101). -/
  | notCommandPacket
  /-- neither a byte with bit 7 = 0 nor the start token (30_encoding.md R104, R105). -/
  | notRecognised
  deriving DecidableEq, Repr

/-- The packet row of an index, an argument and a CRC byte: the named row where there is one (30_encoding.md R115).
DESIGN CHOICE: the named row wins over SD_CMD (any index); safe, both have one meaning (log 10). -/
def packetInstr (index : BitVec 6) (arg : BitVec 32) (crc : BitVec 8) : Instr :=
  if index = 0#6 ∧ arg = 0#32 ∧ crc = 0x95#8 then .cmd0
  else if index = 8#6 ∧ arg = 0x1AA#32 ∧ crc = 0x87#8 then .cmd8
  else if index = 55#6 ∧ arg = 0#32 ∧ crc = 0x65#8 then .cmd55
  else if index = 41#6 ∧ arg = 0x40000000#32 ∧ crc = 0x77#8 then .acmd41
  else if index = 56#6 then .cmd56 arg crc
  else .sdCmd index arg crc

/-- Bits [45:40] of a packet: the command index (30_encoding.md R100). -/
def packetIndex (p : BitVec 48) : BitVec 6 := p.extractLsb' 40 6
/-- Bits [39:8] of a packet: the argument, most significant byte first (30_encoding.md R100, R102). -/
def packetArg (p : BitVec 48) : BitVec 32 := p.extractLsb' 8 32
/-- Bits [7:0] of a packet: the CRC byte (30_encoding.md R100, R103). -/
def packetCrc (p : BitVec 48) : BitVec 8 := p.extractLsb' 0 8

/-- An operation word (30_encoding.md R110, R112(a)). -/
def decodeCtrl (w : BitVec 32) : Except DecodeReject Instr :=
  if w.extractLsb' 2 30 ≠ 0#30 then .error .ctrlReserved
  else match w.extractLsb' 0 2 with
    | 0#2 => .ok .nop
    | 1#2 => .ok .sendCmd
    | 2#2 => .ok .readBlock
    | _ => .ok .clock

/-- A command packet: start bit 0, transmission bit 1 (30_encoding.md R100, R115). -/
def decodePacket (p : BitVec 48) : Except DecodeReject Instr :=
  if p.extractLsb' 46 2 = 1#2 then .ok (packetInstr (packetIndex p) (packetArg p) (packetCrc p))
  else .error .notCommandPacket

/-- A byte from the card: R1 if bit 7 is 0, the start token if it is 0xFE (30_encoding.md R104, R105). -/
def decodeCard (b : BitVec 8) : Except DecodeReject Instr :=
  if b.getLsbD 7 = false then .ok (.r1 (b.extractLsb' 0 7))
  else if b = 0xFE#8 then .ok .startToken
  else .error .notRecognised

/-- The decoder: total on every word of every place, rejecting by name. -/
def decode : Wire → Except DecodeReject Instr
  | .ctrl w => decodeCtrl w
  | .packet p => decodePacket p
  | .card b => decodeCard b

/-- The 48 bits of a command packet: start bit 0, transmission bit 1, index, argument, CRC byte (30_encoding.md R100). -/
def packetBits (index : BitVec 6) (arg : BitVec 32) (crc : BitVec 8) : BitVec 48 :=
  1#2 ++ index ++ arg ++ crc

/-- The encoder, from the opcode table's rows (30_encoding.md R110, R100, R115, R104, R105). -/
def encode : Instr → Wire
  | .nop => .ctrl 0x00000000#32
  | .sendCmd => .ctrl 0x00000001#32
  | .readBlock => .ctrl 0x00000002#32
  | .clock => .ctrl 0x00000003#32
  | .sdCmd index arg crc => .packet (packetBits index arg crc)
  | .cmd0 => .packet 0x400000000095#48
  | .cmd8 => .packet 0x48000001AA87#48
  | .cmd55 => .packet 0x770000000065#48
  | .acmd41 => .packet 0x694000000077#48
  | .cmd56 arg crc => .packet (packetBits 56#6 arg crc)
  | .r1 status => .card (0#1 ++ status)
  | .startToken => .card 0xFE#8

/-- One row of spec/opcode_table.json: its width in bits, its mask and its match. -/
structure Row where
  width : Nat
  mask : Nat
  value : Nat
  deriving DecidableEq, Repr

/-- The opcode table's row of an instruction, as spec/opcode_table.json gives mask and match. -/
def Instr.row : Instr → Row
  | .nop => ⟨32, 0xFFFFFFFF, 0x00000000⟩
  | .sendCmd => ⟨32, 0xFFFFFFFF, 0x00000001⟩
  | .readBlock => ⟨32, 0xFFFFFFFF, 0x00000002⟩
  | .clock => ⟨32, 0xFFFFFFFF, 0x00000003⟩
  | .sdCmd _ _ _ => ⟨48, 0xC00000000000, 0x400000000000⟩
  | .cmd0 => ⟨48, 0xFFFFFFFFFFFF, 0x400000000095⟩
  | .cmd8 => ⟨48, 0xFFFFFFFFFFFF, 0x48000001AA87⟩
  | .cmd55 => ⟨48, 0xFFFFFFFFFFFF, 0x770000000065⟩
  | .acmd41 => ⟨48, 0xFFFFFFFFFFFF, 0x694000000077⟩
  | .cmd56 _ _ => ⟨48, 0xFF0000000000, 0x780000000000⟩
  | .r1 _ => ⟨8, 0x80, 0x00⟩
  | .startToken => ⟨8, 0xFF, 0xFE⟩

/-- The width of a word in bits. -/
def Wire.width : Wire → Nat
  | .ctrl _ => 32
  | .packet _ => 48
  | .card _ => 8

/-- The word as one number, bit 0 the least significant (00_scope.md R10). -/
def Wire.bits : Wire → Nat
  | .ctrl w => w.toNat
  | .packet p => p.toNat
  | .card b => b.toNat

/-- The word of `nbits` bits whose number is `w`, in the place of the opcode table's format of that width; missing high
bits are 0. None where `w` does not fit. -/
def tableWord (nbits w : Nat) : Option Wire :=
  if 2 ^ nbits ≤ w then none
  else if nbits = 0 then none
  else if nbits ≤ 8 then some (.card (BitVec.ofNat 8 w))
  else if nbits ≤ 32 then some (.ctrl (BitVec.ofNat 32 w))
  else if nbits ≤ 48 then some (.packet (BitVec.ofNat 48 w))
  else none

/-- The instruction the decoder reads from a word numbered as the opcode table numbers it. -/
def decodeTableWord (nbits w : Nat) : Option Instr :=
  match tableWord nbits w with
  | none => none
  | some x => match decode x with
    | .ok i => some i
    | .error _ => none

end Sys2Proof
end

