-- ==== Sys2Proof/Config.lean ====
section
/-! DEFINITION. What is fixed for the machine: the constants of 00_scope.md R8, the OPEN parameter BASE, and the free
values the spec leaves open, each an opaque constant about which nothing can be proved. -/

namespace Sys2Proof

/-- `CMD_LEN`: a command packet is 6 bytes (00_scope.md R8). -/
@[simp] abbrev Config.cmdLen : Nat := 6
/-- `CMD_PREFIX`, ORed with the index (00_scope.md R8). -/
@[simp] abbrev Config.cmdPrefix : Byte := 0x40#8
/-- `PRIME_TX`: the one byte sent before the packet (00_scope.md R8). -/
@[simp] abbrev Config.primeTx : Byte := 0xFF#8
/-- `POLL_TX`: the byte sent in an R1 poll (00_scope.md R8). -/
@[simp] abbrev Config.pollTx : Byte := 0xFF#8
/-- `R1_POLL_LIMIT` (00_scope.md R8). -/
@[simp] abbrev Config.r1PollLimit : Nat := 10
/-- `START_TOKEN` (00_scope.md R8, 30_encoding.md R105). -/
@[simp] abbrev Config.startToken : Byte := 0xFE#8
/-- `TOKEN_POLL_LIMIT` (00_scope.md R8). -/
@[simp] abbrev Config.tokenPollLimit : Nat := 1000
/-- `TOKEN_POLL_TX`: the spec's decision D6, a parameter whose default is 0xFF (00_scope.md R8). DESIGN CHOICE: the
default is taken; unsafe for an implementation that sends another byte (log 16). -/
@[simp] abbrev Config.tokenPollTx : Byte := 0xFF#8
/-- `BLOCK_LEN` (00_scope.md R8). -/
@[simp] abbrev Config.blockLen : Nat := 512
/-- `TRAILER_LEN` (00_scope.md R8). -/
@[simp] abbrev Config.trailerLen : Nat := 2
/-- `FILL_TX`, sent during payload and trailer: decision D7, a parameter whose default is 0xFF (00_scope.md R8).
DESIGN CHOICE: the default is taken; unsafe for an implementation that sends another byte (log 16). -/
@[simp] abbrev Config.fillTx : Byte := 0xFF#8
/-- `CLOCK_TX`, sent by CLOCK: 0xFF in R201 and R8, while 92 D7 and 93 U15 list CLOCK's byte with `FILL_TX`, a parameter whose
default is 0xFF. DESIGN CHOICE: the default is taken; unsafe for an implementation that sends another byte (log 16). -/
@[simp] abbrev Config.clockTx : Byte := 0xFF#8
/-- `CS_GAP`: the chip-select level between exchanges of one operation is held (00_scope.md R8, decision D9).
DESIGN CHOICE: the default is taken; unsafe for an implementation that releases it (log 13). -/
@[simp] abbrev Config.csGapHeld : Bool := true
/-- The size of the register window in bytes (00_scope.md R9). -/
@[simp] abbrev Config.windowSize : Nat := 0x400
/-- The offset of `DATA[0]` (10_state.md R41). -/
@[simp] abbrev Config.dataBase : Nat := 0x200

/-- `BASE`, the OPEN base address of the register window (00_scope.md R8, 20_memory.md R71). It has no value: host
accesses are given by their offset in the window. DESIGN CHOICE: a host address, and so BASE, is 32 bits wide, which the spec
leaves to the platform. Safe (log 15). -/
opaque Config.base : Word

/-- FREE VALUE. The byte the card answers with when `env.miso` scripts none, one for each draw (00_scope.md R12,
20_memory.md R75, 93 U1). Safe: nothing constrains it (log 2). -/
opaque Config.cardByte : Nat → Byte

/-- FREE VALUE. What the hardware returns to a read whose value the spec leaves unspecified (10_state.md R48, 20_memory.md
R79, 42_bus_clock_and_access.md R209, R210). Safe: nothing constrains it (log 4). -/
opaque Config.openRead : Nat → Word

/-- FREE VALUE. The draw behind STATUS.COUNT read while BUSY = 1, brought into 0..final by `Sys2Proof.Machine.busyCount`
(42_bus_clock_and_access.md R208, 93 U2). Safe: nothing constrains it (log 5). -/
opaque Config.openCount : Nat → BitVec 16

end Sys2Proof
end

