-- ==== Sys2Proof/Machine/State.lean ====
section
/-! DEFINITION. The machine's state as plain data: everything 10_state.md gives the block, the agents outside it (host and
card), the reasons a model fault is recorded with, and the state right after reset (10_state.md R51). -/

namespace Sys2Proof.Machine

/-- The model faults of 60_exceptions.md R234. "The hardware itself never traps" (00_scope.md R11), so none of them ends a
step: the access that raises one has no effect, the fault is recorded in `State.faults`, and the machine goes on (log 3). -/
inductive Fault where
  /-- F_ACCESS, code 1: raised by a host access of a bad width, alignment or offset, and by a write to STATUS, RESP or
  DATA (20_memory.md R79, R83; 42_bus_clock_and_access.md R211). Safe: the access has no effect in hardware either, or an
  unspecified one. -/
  | access
  /-- F_RESERVED, code 2: raised by a host write to CTRL, CMD or CLKCNT with reserved bits that are not 0
  (42_bus_clock_and_access.md R204, R205, R207). Unsafe for a claim without "no fault recorded": the hardware ignores those
  bits and does the rest of the write (log 12). -/
  | reserved
  /-- F_ISSUE_BUSY, code 3: raised by NOP, SEND_CMD, READ_BLOCK, CLOCK and the packet transactions while BUSY = 1
  (42_bus_clock_and_access.md R204, R200). Safe: the hardware ignores that write too. -/
  | issueBusy
  /-- F_READ_BUSY, code 4: raised by a host read of RESP or DATA while BUSY = 1 (42_bus_clock_and_access.md R209, R210).
  Safe: the value read is free. -/
  | readBusy
  /-- F_UNWRITTEN, code 5: raised by a host read of RESP while RESP_W = 0 or of DATA while DATA_W = 0 (10_state.md R48).
  Safe: the value read is free. -/
  | unwritten
  deriving DecidableEq, Repr

/-- Why a step has no meaning to give. -/
inductive Refusal where
  /-- An instruction with no meaning in the model, by its mnemonic. No arm of `exec` answers with it: every row has its
  meaning. Safe. -/
  | notModelled (mnemonic : String)
  deriving DecidableEq, Repr

/-- The kind of the sequencer phase (10_state.md R45). Its parameter is read from the exchange counter `j` of R44: in
CMD_PKT(i) and PAYLOAD(k) the parameter is `j`, in CMD_POLL(n), TOK_HUNT(n) and CLK(c) it is `j + 1` (log 11). -/
inductive Phase where
  | idle | cmdPrime | cmdPkt | cmdPoll | tokHunt | payload | clk
  deriving DecidableEq, Repr

/-- The values of STATUS.RESULT the block produces (10_state.md R37). 0b110 and 0b111 are never produced (30_encoding.md
R112(d)) and are not representable (log 24). -/
inductive Result where
  | none | cmdResp | cmdNoResp | blkOk | blkNoToken | clkDone
  deriving DecidableEq, Repr

/-- The fields of the host's read/write registers CMD, ARG and CLKCNT (10_state.md R34, R35, R40). -/
structure HostRegs where
  cmdIndex : BitVec 6
  cmdCrc : BitVec 8
  arg : BitVec 32
  clkN : BitVec 16
  clkCs : Bool
  deriving DecidableEq, Repr

/-- STATUS.BUSY, STATUS.RESULT and STATUS.COUNT (10_state.md R36). -/
structure Status where
  busy : Bool
  result : Result
  count : BitVec 16
  deriving DecidableEq, Repr

/-- The hidden operand latches (10_state.md R43). -/
structure Latches where
  idx : BitVec 6
  arg : BitVec 32
  crc : BitVec 8
  n : BitVec 16
  cs : Bool
  deriving DecidableEq, Repr

/-- One entry of the history H: the byte sent, the byte received, chip-select asserted or not (10_state.md R49). -/
structure Exchange where
  tx : Byte
  rx : Byte
  cs : Bool
  deriving DecidableEq, Repr

/-- One raised model fault: its code, the offset, and the value written, if any (60_exceptions.md R234). -/
structure FaultRecord where
  fault : Fault
  offset : Nat
  value : Option Word
  deriving DecidableEq, Repr

/-- One answered host read: its offset, its width in bytes and the value returned. -/
structure HostRead where
  offset : Nat
  width : Nat
  value : Word
  deriving DecidableEq, Repr

/-- What the host, or the platform's reset line, does next (30_encoding.md R117, R118; 70_reset_and_hazards.md R261). -/
inductive HostAct where
  /-- `MemRead(off, n)`, `n` in bytes. -/
  | read (off n : Nat)
  /-- `MemWrite(off, n, v)`, `n` in bytes. -/
  | write (off n : Nat) (v : Word)
  /-- The transaction `SENDCMD idx, arg, crc` of R118, its index typed as 6 bits (30_encoding.md R113). -/
  | sendCmd (idx : BitVec 6) (arg : BitVec 32) (crc : BitVec 8)
  /-- `WAIT`: read STATUS until BUSY = 0. -/
  | wait
  /-- The reset input. -/
  | reset
  deriving DecidableEq, Repr

/-- An agent that can be given a turn. The card acts only inside an exchange of the block (00_scope.md R12). -/
inductive Agent where
  | host | block
  deriving DecidableEq, Repr

/-- The agents outside the block, as data, and the model's own counters of free values (log 1, log 2, log 17, log 21). -/
structure Env where
  /-- The host's pending acts, oldest first (20_memory.md R85). -/
  hostQ : List HostAct
  /-- Whose turn comes next; when it is empty the block moves while it runs, else the host (log 1). -/
  sched : List Agent
  /-- The bytes the card answers with, not yet clocked; when it is empty an answer is a free draw (log 2). -/
  miso : List Byte
  /-- What the host's reads have returned, oldest first (log 17). -/
  reads : List HostRead
  /-- How many free card bytes have been drawn. -/
  cardDraws : Nat
  /-- How many free values host reads have drawn. -/
  hostDraws : Nat
  deriving DecidableEq, Repr

/-- The state of the block (10_state.md) and of the agents around it. -/
structure State where
  /-- CMD, ARG, CLKCNT (10_state.md R34, R35, R40). -/
  regs : HostRegs
  /-- STATUS (10_state.md R36). -/
  status : Status
  /-- RESP.R1 (10_state.md R39). -/
  respR1 : Byte
  /-- The mark RESP_W (10_state.md R48). -/
  respW : Bool
  /-- DATA as bytes at window offsets 0x200 to 0x3FF, in canonical form (10_state.md R41; log 7). -/
  data : List Host.Cell
  /-- The mark DATA_W (10_state.md R48). -/
  dataW : Bool
  /-- The operand latches (10_state.md R43). -/
  latch : Latches
  /-- The kind of the sequencer phase (10_state.md R45). -/
  phase : Phase
  /-- The exchange counter inside the phase (10_state.md R44); in IDLE what the last operation left (log 25). -/
  j : BitVec 16
  /-- The output CS_n, true when deasserted (10_state.md R47). -/
  csN : Bool
  /-- The output MOSI_byte: the byte of the latest exchange (10_state.md R47). -/
  mosi : Byte
  /-- The history H, oldest first (10_state.md R49). -/
  history : List Exchange
  /-- The model faults raised since reset, oldest first (60_exceptions.md R234, R235). -/
  faults : List FaultRecord
  /-- The host, the card, and the turns between them. -/
  env : Env
  deriving DecidableEq, Repr

/-- The machine right after reset (10_state.md R51; 70_reset_and_hazards.md R260). R51 leaves RESP.R1, DATA, the latches
and `j` unspecified and R262 the MOSI level: DESIGN CHOICE 0, unsafe, though no read shows them (log 6, log 7). The agents
outside the block have nothing to do: DESIGN CHOICE (log 21). -/
def State.reset : State where
  regs := { cmdIndex := 0#6, cmdCrc := 0#8, arg := 0#32, clkN := 0#16, clkCs := false }
  status := { busy := false, result := .none, count := 0#16 }
  respR1 := 0#8
  respW := false
  data := []
  dataW := false
  latch := { idx := 0#6, arg := 0#32, crc := 0#8, n := 0#16, cs := false }
  phase := .idle
  j := 0#16
  csN := true
  mosi := 0#8
  history := []
  faults := []
  env := { hostQ := [], sched := [], miso := [], reads := [], cardDraws := 0, hostDraws := 0 }

end Sys2Proof.Machine
end

