-- ==== Sys2Proof/Machine/Operands.lean ====
section
/-! DEFINITION. Every operand form of the block: the bytes of the packet, the words of the host registers, and which host
accesses are of a permitted offset, width and alignment. -/

namespace Sys2Proof.Machine

/-- Byte `i` of the command packet framed from the latches, i = 0..5 (30_encoding.md R100 to R103, 40_command_framer.md
R140). -/
def pktByte (l : Latches) : Nat → Byte
  | 0 => Config.cmdPrefix ||| l.idx.setWidth 8
  | 1 => l.arg.extractLsb' 24 8
  | 2 => l.arg.extractLsb' 16 8
  | 3 => l.arg.extractLsb' 8 8
  | 4 => l.arg.extractLsb' 0 8
  | _ => l.crc

/-- The bytes of a packet in wire order (30_encoding.md R100). -/
def packetBytes (l : Latches) : List Byte :=
  (List.range Config.cmdLen).map (pktByte l)

/-- A read of CMD: CRC in [15:8], INDEX in [5:0], reserved bits 0 (42_bus_clock_and_access.md R214). -/
def cmdWord (r : HostRegs) : Word := 0#16 ++ r.cmdCrc ++ 0#2 ++ r.cmdIndex

/-- A read of CLKCNT: CS in [16], N in [15:0], reserved bits 0 (42_bus_clock_and_access.md R214). -/
def clkWord (r : HostRegs) : Word := 0#15 ++ BitVec.ofBool r.clkCs ++ r.clkN

/-- CMD.INDEX of a written word (42_bus_clock_and_access.md R205). -/
def cmdIndexOf (v : Word) : BitVec 6 := v.extractLsb' 0 6
/-- CMD.CRC of a written word (42_bus_clock_and_access.md R205). -/
def cmdCrcOf (v : Word) : BitVec 8 := v.extractLsb' 8 8
/-- CLKCNT.N of a written word (42_bus_clock_and_access.md R207). -/
def clkNOf (v : Word) : BitVec 16 := v.extractLsb' 0 16
/-- CLKCNT.CS of a written word (42_bus_clock_and_access.md R207). -/
def clkCsOf (v : Word) : Bool := v.getLsbD 16

/-- A word written to CMD with v[7:6] ≠ 0 or v[31:16] ≠ 0 (42_bus_clock_and_access.md R205). -/
def cmdReserved (v : Word) : Bool := v.extractLsb' 6 2 != 0#2 || v.extractLsb' 16 16 != 0#16

/-- A word written to CLKCNT with v[31:17] ≠ 0 (42_bus_clock_and_access.md R207). -/
def clkReserved (v : Word) : Bool := v.extractLsb' 17 15 != 0#15

/-- A register access of a permitted offset, width and alignment: 0x000 to 0x014, aligned, 4 bytes (20_memory.md
R79(a)). -/
def regAccess (off n : Nat) : Bool := n == 4 && off % 4 == 0 && decide (off ≤ 0x14)

/-- A DATA access of a permitted offset, width and alignment: 1, 2 or 4 bytes, naturally aligned (20_memory.md R79(b)). -/
def dataAccess (off n : Nat) : Bool :=
  (n == 1 || n == 2 || n == 4) && off % n == 0 && decide (Config.dataBase ≤ off) &&
    decide (off < Config.windowSize)

/-- The offset in the window that a host address stands for: offset bits [9:0] relative to BASE (20_memory.md R71). DESIGN
CHOICE: addresses are 32 bits wide and the difference is taken modulo 2^32; safe, bits [9:0] of it are the same for every
width of at least 10 bits (log 15). -/
def windowOffset (addr : Word) : Nat := ((addr - Config.base).extractLsb' 0 10).toNat

end Sys2Proof.Machine
end

