-- ==== Sys2Proof/Machine/Ops.lean ====
section
/-! DEFINITION. The named operations over memory, the bus, the sequencer and the fault record: every meaning is written over
these. There is no trap entry and no return from one (60_exceptions.md R240, R241); recording a model fault (R234) is the
one shared operation in their place. -/

namespace Sys2Proof.Machine

/-- One byte of DATA storage; what nothing has written reads 0x00. DESIGN CHOICE, unsafe, though no read shows it before a
whole block was stored (10_state.md R51; log 7). -/
def Memory.read : List Host.Cell → Nat → Byte
  | [], _ => 0#8
  | (k, b) :: rest, a => if k = a then b else Memory.read rest a

/-- Stores one byte, keeping addresses rising and no entry equal to what an unlisted address reads as (log 7). -/
def Memory.write : List Host.Cell → Nat → Byte → List Host.Cell
  | [], a, v => if v = 0#8 then [] else [(a, v)]
  | (k, b) :: rest, a, v =>
    if a < k then (if v = 0#8 then (k, b) :: rest else (a, v) :: (k, b) :: rest)
    else if a = k then (if v = 0#8 then rest else (a, v) :: rest)
    else (k, b) :: Memory.write rest a v

/-- Canonical form from `lo` up: addresses strictly rising, none below `lo`, no entry that an unlisted address reads as. -/
def Memory.wfFrom (lo : Nat) : List Host.Cell → Bool
  | [] => true
  | (k, b) :: rest => decide (lo ≤ k) && b != 0#8 && Memory.wfFrom (k + 1) rest

/-- The canonical form of DATA: `Memory.wfFrom` its first offset, and no offset past the window (10_state.md R41). -/
def Memory.wf (m : List Host.Cell) : Bool :=
  Memory.wfFrom Config.dataBase m && m.all (fun c => decide (c.1 < Config.windowSize))

/-- `n` bytes from offset `off`, little-endian (20_memory.md R77). -/
def Memory.readLE (m : List Host.Cell) (off : Nat) : Nat → Word
  | 0 => 0#32
  | n + 1 => (Memory.readLE m (off + 1) n <<< 8) ||| (Memory.read m off).setWidth 32

/-- The code number of a model fault (60_exceptions.md R234). -/
def faultCode : Fault → Nat
  | .access => 1
  | .reserved => 2
  | .issueBusy => 3
  | .readBusy => 4
  | .unwritten => 5

/-- `raise`: records a model fault with its offset and the value written (60_exceptions.md R234); nothing clears it but
reset (R235). DEDUCED: the machine goes on, as the hardware does (log 3). -/
def raise (f : Fault) (off : Nat) (v : Option Word) (s : State) : State :=
  { s with faults := s.faults ++ [⟨f, off, v⟩] }

/-- `Xchg(tx, cs) -> rx`: one full-duplex byte exchange, appended to the history (20_memory.md R75, 10_state.md R49). CS_n
is low in it when `cs`, and keeps that level until the next exchange (R47, `CS_GAP` of 00_scope.md R8; log 13). -/
def xchg (tx : Byte) (cs : Bool) (rx : Byte) (s : State) : State :=
  { s with history := s.history ++ [⟨tx, rx, cs⟩], mosi := tx, csN := !(cs && Config.csGapHeld) }

/-- Enters a phase with no exchange of it made yet (10_state.md R44, R45). -/
def enter (p : Phase) (s : State) : State := { s with phase := p, j := 0#16 }

/-- Counts one exchange inside the phase (10_state.md R44). -/
def advance (s : State) : State := { s with j := s.j + 1#16 }

/-- `STATUS.COUNT <- n` (10_state.md R38). -/
def setCount (n : BitVec 16) (s : State) : State := { s with status := { s.status with count := n } }

/-- The start effects every operation but NOP shares: BUSY = 1, RESULT = NONE, COUNT = 0 and the operation's first phase
(42_bus_clock_and_access.md R212 steps 2 and 3). -/
def begin (p : Phase) (s : State) : State :=
  enter p { s with status := { busy := true, result := .none, count := 0#16 } }

/-- The completion every operation shares: its RESULT, BUSY = 0 and phase IDLE together, and CS_n deasserted
(42_bus_clock_and_access.md R213, 10_state.md R47). DESIGN CHOICE: the hidden counter `j` stays at the index of the completing
exchange, counted from 0, since the spec gives it no value in IDLE; no permitted read shows it, and the next start overwrites
it (log 25). -/
def complete (r : Result) (s : State) : State :=
  { s with status := { s.status with busy := false, result := r }, phase := .idle, csN := true }

/-- The third check of a write to CTRL: F_ISSUE_BUSY while BUSY = 1, else the operation's own start
(42_bus_clock_and_access.md R204, R200). `w` is the operation word, which the fault records. -/
def issue (w : Word) (start : State → State) (s : State) : State :=
  if s.status.busy then raise .issueBusy 0 (some w) s else start s

/-- The next byte the card answers with: its script, or a free draw (00_scope.md R12, 20_memory.md R75; log 2). -/
def nextRx (s : State) : Byte :=
  match s.env.miso with
  | b :: _ => b
  | [] => Config.cardByte s.env.cardDraws

/-- Takes that byte off the bus, or counts the draw. -/
def dropRx (s : State) : State :=
  match s.env.miso with
  | _ :: rest => { s with env := { s.env with miso := rest } }
  | [] => { s with env := { s.env with cardDraws := s.env.cardDraws + 1 } }

/-- The byte the card answers with in the `k`-th exchange from now, k = 0 the next (00_scope.md R12; log 2). -/
def rxAt (s : State) (k : Nat) : Byte :=
  match s.env.miso[k]? with
  | some b => b
  | none => Config.cardByte (s.env.cardDraws + (k - s.env.miso.length))

/-- A byte no exchange has clocked stays on the bus (70_reset_and_hazards.md R274). -/
def putBack (rx : Byte) (s : State) : State :=
  { s with env := { s.env with miso := rx :: s.env.miso } }

/-- Reset: every piece of the block at its value of 10_state.md R51, at an exchange boundary (70_reset_and_hazards.md
R260, R261). The host, the card and the draws stay as they are: DESIGN CHOICE (log 18). -/
def hardReset (s : State) : State := { State.reset with env := s.env }

end Sys2Proof.Machine
end

