-- ==== Sys2Proof/Machine/Flags.lean ====
section
/-! DEFINITION. The tests and status values of the block: R1 validity, the token test, the RESULT codes, the STATUS word, and
the value COUNT reads as while BUSY = 1. -/

namespace Sys2Proof.Machine

/-- `R1_VALID(b)`: bit 7 is 0, and nothing else is looked at (30_encoding.md R104). -/
def r1Valid (b : Byte) : Bool := !b.getLsbD 7

/-- The token test: equality with 0xFE in all 8 bits (30_encoding.md R105, 41_block_reader.md R172). -/
def isToken (b : Byte) : Bool := b == Config.startToken

/-- The code of a RESULT value (10_state.md R37). -/
def resultCode : Result → BitVec 3
  | .none => 0#3
  | .cmdResp => 1#3
  | .cmdNoResp => 2#3
  | .blkOk => 3#3
  | .blkNoToken => 4#3
  | .clkDone => 5#3

/-- The STATUS word of a COUNT, a RESULT and a BUSY: bits [31:16], [15:4] = 0, [3:1], [0] (42_bus_clock_and_access.md
R208). -/
def statusWord (count : BitVec 16) (r : Result) (busy : Bool) : Word :=
  count ++ 0#12 ++ resultCode r ++ BitVec.ofBool busy

/-- The number of the poll that ends a poll loop, from poll `n` on: the first whose byte hits, or the last of the `fuel`
more that follow it. `rx k` is the byte of the `k`-th exchange from now. -/
def pollEnd (hit : Byte → Bool) (rx : Nat → Byte) : Nat → Nat → Nat → Nat
  | 0, n, _ => n
  | fuel + 1, n, k => if hit (rx k) then n else pollEnd hit rx fuel (n + 1) (k + 1)

/-- The value COUNT will hold when the running operation ends (10_state.md R38): of SEND_CMD and READ_BLOCK the number of
the poll that ends the loop on the bytes the card is going to answer with, of CLOCK `L_N`; in IDLE and in the payload COUNT
is final already. -/
def finalCount (s : State) : Nat :=
  match s.phase with
  | .idle => s.status.count.toNat
  | .cmdPrime => pollEnd r1Valid (rxAt s) (Config.r1PollLimit - 1) 1 (Config.cmdLen + 1)
  | .cmdPkt => pollEnd r1Valid (rxAt s) (Config.r1PollLimit - 1) 1 (Config.cmdLen - s.j.toNat)
  | .cmdPoll => pollEnd r1Valid (rxAt s) (Config.r1PollLimit - (s.j.toNat + 1)) (s.j.toNat + 1) 0
  | .tokHunt => pollEnd isToken (rxAt s) (Config.tokenPollLimit - (s.j.toNat + 1)) (s.j.toNat + 1) 0
  | .payload => s.status.count.toNat
  | .clk => s.latch.n.toNat

/-- COUNT as a STATUS read shows it: its value when idle, and while BUSY = 1 a free draw in 0..final
(42_bus_clock_and_access.md R208, 93 U2; log 5). -/
def busyCount (s : State) : BitVec 16 :=
  if s.status.busy then BitVec.ofNat 16 ((Config.openCount s.env.hostDraws).toNat % (finalCount s + 1))
  else s.status.count

end Sys2Proof.Machine
end

