-- ==== Sys2Proof/Machine/Auxiliary.lean ====
section
/-! DEFINITION. The auxiliary operations NOP and CLOCK (42_bus_clock_and_access.md R200 to R203): their starts, and the
exchange of phase CLK(c). -/

namespace Sys2Proof.Machine

/-- NOP written to CTRL: nothing when idle, F_ISSUE_BUSY while BUSY = 1 (42_bus_clock_and_access.md R200, R204). -/
def execNop (s : State) : Host.Outcome State Fault Refusal := .next (issue 0#32 id s)

/-- The start: N and CS latched, BUSY = 1, RESULT = NONE, COUNT = 0, phase CLK(1); with N = 0 it completes at once
(42_bus_clock_and_access.md R201, R202, R212). -/
def startClock (s : State) : State :=
  let t := begin .clk { s with latch := { s.latch with n := s.regs.clkN, cs := s.regs.clkCs } }
  if s.regs.clkN = 0#16 then complete .clkDone t else t

/-- CLOCK written to CTRL (42_bus_clock_and_access.md R201, R204). -/
def execClock (s : State) : Host.Outcome State Fault Refusal := .next (issue 3#32 startClock s)

/-- Phase CLK(c), c = `j + 1`: 0xFF is sent with chip-select L_CS, rx is discarded, COUNT takes c; the L_N-th exchange
completes with CLK_DONE (42_bus_clock_and_access.md R201). -/
def clkStep (rx : Byte) (s : State) : State :=
  let t := setCount (s.j + 1#16) (xchg Config.clockTx s.latch.cs rx s)
  if s.j.toNat + 1 < s.latch.n.toNat then advance t else complete .clkDone t

end Sys2Proof.Machine
end

