-- ==== Sys2Proof/Machine/ReadBlock.lean ====
section
/-! DEFINITION. READ_BLOCK (41_block_reader.md): its start, and the exchange of each of its phases TOK_HUNT(n) and
PAYLOAD(k). -/

namespace Sys2Proof.Machine

/-- The start: BUSY = 1, RESULT = NONE, COUNT = 0, phase TOK_HUNT(1); no latch, no exchange (41_block_reader.md R171,
42_bus_clock_and_access.md R212). -/
def startReadBlock (s : State) : State := begin .tokHunt s

/-- READ_BLOCK written to CTRL (41_block_reader.md R170, 42_bus_clock_and_access.md R204). -/
def execReadBlock (s : State) : Host.Outcome State Fault Refusal := .next (issue 2#32 startReadBlock s)

/-- Phase TOK_HUNT(n), n = `j + 1`: COUNT takes n; 0xFE leads to PAYLOAD(0), at the last poll too; a thousandth other byte
ends with BLK_NOTOKEN, DATA untouched (41_block_reader.md R171, R172, R173, R176; 60_exceptions.md R239). -/
def huntStep (rx : Byte) (s : State) : State :=
  let t := setCount (s.j + 1#16) (xchg Config.tokenPollTx true rx s)
  if isToken rx then enter .payload t
  else if s.j.toNat + 1 < Config.tokenPollLimit then advance t
  else complete .blkNoToken t

/-- `DATA[k] <- b` (10_state.md R41, 20_memory.md R78). -/
def storePayload (k : Nat) (b : Byte) (s : State) : State :=
  { s with data := Memory.write s.data (Config.dataBase + k) b }

/-- READ_BLOCK's completion with a block: DATA_W is set with the shared completion (41_block_reader.md R176, 10_state.md
R48). -/
def finishBlock (s : State) : State := { complete .blkOk s with dataW := true }

/-- Phase PAYLOAD(k), k = `j`: the first 512 bytes are stored in wire order, the two trailer bytes are discarded, and the
last of them completes with BLK_OK (41_block_reader.md R174, R175, R176). -/
def payloadStep (rx : Byte) (s : State) : State :=
  let t := xchg Config.fillTx true rx s
  if s.j.toNat < Config.blockLen then advance (storePayload s.j.toNat rx t)
  else if s.j.toNat + 1 < Config.blockLen + Config.trailerLen then advance t
  else finishBlock t

end Sys2Proof.Machine
end

