-- ==== Sys2Proof/Machine/SendCmd.lean ====
section
/-! DEFINITION. SEND_CMD (40_command_framer.md): its start, and the exchange of each of its phases CMD_PRIME, CMD_PKT(i) and
CMD_POLL(n). -/

namespace Sys2Proof.Machine

/-- The start: the operands latched, BUSY = 1, RESULT = NONE, COUNT = 0, phase CMD_PRIME; no exchange
(40_command_framer.md R141, 42_bus_clock_and_access.md R212). -/
def startSendCmd (s : State) : State :=
  begin .cmdPrime
    { s with latch := { s.latch with idx := s.regs.cmdIndex, arg := s.regs.arg, crc := s.regs.cmdCrc } }

/-- SEND_CMD written to CTRL (40_command_framer.md R140, 42_bus_clock_and_access.md R204). -/
def execSendCmd (s : State) : Host.Outcome State Fault Refusal := .next (issue 1#32 startSendCmd s)

/-- Phase CMD_PRIME: 0xFF is sent, rx is discarded (40_command_framer.md R142, R147). -/
def primeStep (rx : Byte) (s : State) : State := enter .cmdPkt (xchg Config.primeTx true rx s)

/-- Phase CMD_PKT(i), i = `j`: byte i of the packet is sent, rx is discarded (40_command_framer.md R143, R147). A `j` past
the packet, which no run reaches, is taken as its last byte (log 22). -/
def pktStep (rx : Byte) (s : State) : State :=
  let t := xchg (pktByte s.latch s.j.toNat) true rx s
  if s.j.toNat + 1 < Config.cmdLen then advance t else enter .cmdPoll t

/-- SEND_CMD's completion: RESP_W is set with the shared completion (40_command_framer.md R145, R146; 10_state.md R48). -/
def finishCmd (r : Result) (s : State) : State := { complete r s with respW := true }

/-- Phase CMD_POLL(n), n = `j + 1`: RESP.R1 takes rx and COUNT takes n; a byte with bit 7 = 0 is the response, at the last
poll too, and a tenth byte with bit 7 = 1 is no response (40_command_framer.md R144, R145, R146; 60_exceptions.md R239). -/
def pollStep (rx : Byte) (s : State) : State :=
  let t := setCount (s.j + 1#16) { xchg Config.pollTx true rx s with respR1 := rx }
  if r1Valid rx then finishCmd .cmdResp t
  else if s.j.toNat + 1 < Config.r1PollLimit then advance t
  else finishCmd .cmdNoResp t

end Sys2Proof.Machine
end

