-- ==== Sys2Proof/Machine/CardByte.lean ====
section
/-! DEFINITION. The block's step: the one exchange of the phase it is in, given the byte the card answers with (10_state.md
R46). A byte of the card is an instruction word where the block can recognise it (30_encoding.md R104, R105), and its
meaning is that exchange. -/

namespace Sys2Proof.Machine

/-- One step of the block with received byte `rx`: exactly one exchange, then the successor phase. In IDLE the block has no
step and the byte stays on the bus (10_state.md R46, 70_reset_and_hazards.md R262, R274; log 9). -/
def blockStep (rx : Byte) (s : State) : State :=
  match s.phase with
  | .idle => putBack rx s
  | .cmdPrime => primeStep rx s
  | .cmdPkt => pktStep rx s
  | .cmdPoll => pollStep rx s
  | .tokHunt => huntStep rx s
  | .payload => payloadStep rx s
  | .clk => clkStep rx s

/-- R1 (valid response byte): the exchange in which the card answers with a byte of bit 7 = 0. In CMD_POLL it is the
response (30_encoding.md R104, 40_command_framer.md R145); in a hunt it is no token (41_block_reader.md R172); in the payload
it is stored (R174); elsewhere it is discarded. DEDUCED (log 9). -/
def execR1 (status : BitVec 7) (s : State) : Host.Outcome State Fault Refusal :=
  .next (blockStep (0#1 ++ status) s)

/-- START_TOKEN: the exchange in which the card answers with 0xFE. In TOK_HUNT it is the token (30_encoding.md R105,
41_block_reader.md R171); in CMD_POLL it is a byte with bit 7 = 1; in the payload it is stored (R174); elsewhere it is
discarded. DEDUCED (log 9). -/
def execStartToken (s : State) : Host.Outcome State Fault Refusal :=
  .next (blockStep Config.startToken s)

end Sys2Proof.Machine
end

