-- ==== Sys2Proof/Machine/Packet.lean ====
section
/-! DEFINITION. The command packets (30_encoding.md R100, R115): the transaction SENDCMD of R118 that has the block frame and
transmit that packet. -/

namespace Sys2Proof.Machine

/-- `WR CMD` and `WR ARG` of a packet's operands (42_bus_clock_and_access.md R205, R206). -/
def loadOperands (index : BitVec 6) (arg : BitVec 32) (crc : BitVec 8) (s : State) : State :=
  { s with regs := { s.regs with cmdIndex := index, cmdCrc := crc, arg := arg } }

/-- The host waits for BUSY = 0 before its next act (30_encoding.md R118 `WAIT`). -/
def pushWait (s : State) : State :=
  { s with env := { s.env with hostQ := .wait :: s.env.hostQ } }

/-- `SENDCMD idx, arg, crc`: WR CMD, WR ARG, WR CTRL with SEND_CMD, WAIT (30_encoding.md R118). While BUSY = 1 the first two
writes land and the third raises F_ISSUE_BUSY (42_bus_clock_and_access.md R204 to R206). DEDUCED: this is the meaning of a
packet row, its accesses made in one step (log 8). -/
def framePacket (index : BitVec 6) (arg : BitVec 32) (crc : BitVec 8) (s : State) : State :=
  pushWait (issue 1#32 startSendCmd (loadOperands index arg crc s))

/-- SD_CMD (any index) (30_encoding.md R100, R118). -/
def execSdCmd (index : BitVec 6) (arg : BitVec 32) (crc : BitVec 8) (s : State) : Host.Outcome State Fault Refusal :=
  .next (framePacket index arg crc s)

/-- CMD0 (GO_IDLE): index 0, argument 0, CRC 0x95 (30_encoding.md R115). -/
def execCmd0 (s : State) : Host.Outcome State Fault Refusal := .next (framePacket 0#6 0#32 0x95#8 s)

/-- CMD8 (CHECK_VOLTAGE): index 8, argument 0x1AA, CRC 0x87 (30_encoding.md R115). -/
def execCmd8 (s : State) : Host.Outcome State Fault Refusal := .next (framePacket 8#6 0x1AA#32 0x87#8 s)

/-- CMD55 (APP_CMD): index 55, argument 0, CRC 0x65 (30_encoding.md R115). -/
def execCmd55 (s : State) : Host.Outcome State Fault Refusal := .next (framePacket 55#6 0#32 0x65#8 s)

/-- ACMD41: index 41, argument 0x40000000, CRC 0x77 (30_encoding.md R115). -/
def execAcmd41 (s : State) : Host.Outcome State Fault Refusal := .next (framePacket 41#6 0x40000000#32 0x77#8 s)

/-- CMD56: index 56, with the argument and the CRC byte the host gives (30_encoding.md R115, 93 U18). -/
def execCmd56 (arg : BitVec 32) (crc : BitVec 8) (s : State) : Host.Outcome State Fault Refusal :=
  .next (framePacket 56#6 arg crc s)

end Sys2Proof.Machine
end

