-- ==== Sys2Proof/Machine/Dispatch.lean ====
section
/-! DEFINITION. One arm for each instruction, each one call of its own meaning. -/

namespace Sys2Proof.Machine

def exec (i : Instr) (s : State) : Host.Outcome State Fault Refusal :=
  match i with
  | .nop => Sys2Proof.Machine.execNop s
  | .sendCmd => Sys2Proof.Machine.execSendCmd s
  | .readBlock => Sys2Proof.Machine.execReadBlock s
  | .clock => Sys2Proof.Machine.execClock s
  | .sdCmd index arg crc => Sys2Proof.Machine.execSdCmd index arg crc s
  | .cmd0 => Sys2Proof.Machine.execCmd0 s
  | .cmd8 => Sys2Proof.Machine.execCmd8 s
  | .cmd55 => Sys2Proof.Machine.execCmd55 s
  | .acmd41 => Sys2Proof.Machine.execAcmd41 s
  | .cmd56 arg crc => Sys2Proof.Machine.execCmd56 arg crc s
  | .r1 status => Sys2Proof.Machine.execR1 status s
  | .startToken => Sys2Proof.Machine.execStartToken s

end Sys2Proof.Machine
end

