-- ==== Sys2Proof/Machine/HostAccess.lean ====
section
/-! DEFINITION. The host's register accesses (20_memory.md R79 to R84; 42_bus_clock_and_access.md R205 to R211, R214): which
model fault an access raises, what a read returns, what a write changes. A write to CTRL starts an operation and is
decoded as an instruction word (Fetch.lean). -/

namespace Sys2Proof.Machine

/-- The model fault of a read, if any, in the order F_ACCESS, F_READ_BUSY, F_UNWRITTEN (60_exceptions.md R238;
20_memory.md R79, R80, R82; 42_bus_clock_and_access.md R209, R210). -/
def readFault (off n : Nat) (s : State) : Option Fault :=
  if regAccess off n then
    if off = 0x10 then
      if s.status.busy then some .readBusy else if s.respW then none else some .unwritten
    else none
  else if dataAccess off n then
    if s.status.busy then some .readBusy else if s.dataW then none else some .unwritten
  else some .access

/-- What a permitted read returns (20_memory.md R80, R82; 42_bus_clock_and_access.md R208, R209, R210, R214). -/
def readValue (off n : Nat) (s : State) : Word :=
  match off with
  | 0x000 => 0#32
  | 0x004 => cmdWord s.regs
  | 0x008 => s.regs.arg
  | 0x00C => statusWord (busyCount s) s.status.result s.status.busy
  | 0x010 => s.respR1.setWidth 32
  | 0x014 => clkWord s.regs
  | _ => Memory.readLE s.data off n

/-- A read is answered, and the draws of free values move on (log 17). -/
def answer (off n : Nat) (v : Word) (s : State) : State :=
  { s with env := { s.env with reads := s.env.reads ++ [⟨off, n, v⟩], hostDraws := s.env.hostDraws + 1 } }

/-- A free value of `n` bytes, zero above them (log 4). -/
def openValue (n : Nat) (s : State) : Word := ((Config.openRead s.env.hostDraws).setWidth (8 * n)).setWidth 32

/-- `MemRead(off, n)`. A read that raises a model fault changes nothing of the block but the fault record, and returns a
value the spec leaves unspecified: a free value (60_exceptions.md R234; DESIGN CHOICE, log 4). -/
def memRead (off n : Nat) (s : State) : State :=
  match readFault off n s with
  | some f => answer off n (openValue n s) (raise f off none s)
  | none => answer off n (readValue off n s) s

/-- The model fault of a write to anything but CTRL, if any, in the order F_ACCESS, F_RESERVED (60_exceptions.md R238;
20_memory.md R81, R83; 42_bus_clock_and_access.md R205, R207, R211). -/
def writeFault (off n : Nat) (v : Word) : Option Fault :=
  if regAccess off n then
    match off with
    | 0x004 => if cmdReserved v then some .reserved else none
    | 0x008 => none
    | 0x014 => if clkReserved v then some .reserved else none
    | _ => some .access
  else some .access

/-- What a permitted write to CMD, ARG or CLKCNT changes, while BUSY = 1 too (42_bus_clock_and_access.md R205, R206,
R207). -/
def writeReg (off : Nat) (v : Word) (s : State) : State :=
  match off with
  | 0x004 => { s with regs := { s.regs with cmdIndex := cmdIndexOf v, cmdCrc := cmdCrcOf v } }
  | 0x008 => { s with regs := { s.regs with arg := v } }
  | 0x014 => { s with regs := { s.regs with clkN := clkNOf v, clkCs := clkCsOf v } }
  | _ => s

/-- `MemWrite(off, n, v)` to anything but CTRL: a write that raises a model fault has no other effect (60_exceptions.md
R234; log 12). -/
def memWrite (off n : Nat) (v : Word) (s : State) : State :=
  match writeFault off n v with
  | some f => raise f off (some v) s
  | none => writeReg off v s

end Sys2Proof.Machine
end

