-- ==== Sys2Proof/Machine/Fetch.lean ====
section
/-! DEFINITION. Whose turn it is and what it fetches: an operation word from a host write to CTRL, a command packet from the
host's SENDCMD, a byte from the card in an exchange; or an access or exchange that is no instruction, done in place. -/

namespace Sys2Proof.Machine

/-- What a turn fetches. -/
inductive Fetched where
  /-- An instruction, and the state it runs from. -/
  | run (i : Instr) (s : State)
  /-- No instruction: the turn is done, and this is the state after it. -/
  | moved (s : State)
  deriving DecidableEq, Repr

/-- Whose turn it is: as `env.sched` says, and when it is empty the block's while it runs, else the host's if it has an act
pending (20_memory.md R76, R85). DESIGN CHOICE: the default order; unsafe only for a claim that omits `sched` (log 1). -/
def turn (s : State) : Agent :=
  match s.env.sched with
  | a :: _ => a
  | [] => if s.phase = .idle ∧ s.env.hostQ ≠ [] then .host else .block

/-- Uses up one entry of the schedule. -/
def popSched (s : State) : State := { s with env := { s.env with sched := s.env.sched.tail } }

/-- Takes the host's oldest pending act. -/
def popHost (s : State) : State := { s with env := { s.env with hostQ := s.env.hostQ.tail } }

/-- A write to CTRL: the access check, then the operation word's reserved bits, then the operation itself
(42_bus_clock_and_access.md R204, 60_exceptions.md R238). Any other write is `memWrite`. -/
def fetchWrite (off n : Nat) (v : Word) (s : State) : Fetched :=
  if off = 0 ∧ regAccess off n = true then
    match decode (.ctrl v) with
    | .ok i => .run i s
    | .error _ => .moved (raise .reserved off (some v) s)
  else .moved (memWrite off n v s)

/-- The host's turn: its oldest pending act. A WAIT is done when BUSY = 0 and stays otherwise (30_encoding.md R117, R118); a
reset keeps the agents outside the block (log 18). -/
def fetchHost (s : State) : Fetched :=
  match s.env.hostQ with
  | [] => .moved s
  | .read off n :: _ => .moved (memRead off n (popHost s))
  | .write off n v :: _ => fetchWrite off n v (popHost s)
  | .sendCmd idx arg crc :: _ => .run (packetInstr idx arg crc) (popHost s)
  | .wait :: _ => .moved (if s.status.busy then s else popHost s)
  | .reset :: _ => .moved (hardReset (popHost s))

/-- The block's turn: in IDLE with nothing on the bus it waits (70_reset_and_hazards.md R263); else the byte the card answers
with is an instruction word, and a byte that is none is exchanged all the same (10_state.md R46; log 9). -/
def fetchBlock (s : State) : Fetched :=
  if s.phase = .idle ∧ s.env.miso = [] then .moved s
  else match decode (.card (nextRx s)) with
    | .ok i => .run i (dropRx s)
    | .error _ => .moved (blockStep (nextRx s) (dropRx s))

/-- One turn of the agent that is next. -/
def fetch (s : State) : Fetched :=
  match turn s with
  | .host => fetchHost (popSched s)
  | .block => fetchBlock (popSched s)

/-- The host's next act is this one, and it is the host's turn. -/
def placeHost (a : HostAct) (s : State) : State :=
  { s with env := { s.env with hostQ := a :: s.env.hostQ, sched := .host :: s.env.sched } }

/-- The card's next answer is this byte, and it is the block's turn. -/
def placeCard (b : Byte) (s : State) : State :=
  { s with env := { s.env with miso := b :: s.env.miso, sched := .block :: s.env.sched } }

/-- Places an instruction word where the next step fetches: a write to CTRL, a SENDCMD of the packet's operands, an answer of
the card (log 19). A word that is no command packet has no place: the host cannot express it (30_encoding.md R113). -/
def place (x : Wire) (s : State) : State :=
  match x with
  | .ctrl w => placeHost (.write 0 4 w) s
  | .packet p =>
    if p.extractLsb' 46 2 = 1#2 then placeHost (.sendCmd (packetIndex p) (packetArg p) (packetCrc p)) s else s
  | .card b => placeCard b s

end Sys2Proof.Machine
end

