-- ==== Sys2Proof/Machine/Step.lean ====
section
/-! DEFINITION. One step of the machine: one turn of the agent that is next, running the instruction it fetches, if any. -/

namespace Sys2Proof.Machine

/-- One step: one host access, one host transaction, or one exchange of the block (10_state.md R46, 20_memory.md R76). -/
def step (s : State) : Host.Outcome State Fault Refusal :=
  match fetch s with
  | .run i t => exec i t
  | .moved t => .next t

/-- `s` with the word of `nbits` bits numbered `w` placed where `step` fetches its next instruction (log 19). -/
def State.withFetchWord (s : State) (nbits w : Nat) : State :=
  match tableWord nbits w with
  | some x => place x s
  | none => s

end Sys2Proof.Machine
end

