-- ==== Sys2Proof/Machine/HostSyntax.lean ====
section
/-! DEFINITION. The host syntax and the pseudo-instructions of 30_encoding.md R117 and R118 as lists of host acts, and the
host's boot sequence (70_reset_and_hazards.md R265, R268, R269) in them. The host's conditionals between these lists are
host software, which is not part of the block (00_scope.md R6(b)). -/

namespace Sys2Proof.Machine

/-- The registers' names (30_encoding.md R117) and offsets (10_state.md R32). -/
inductive Reg where
  | ctrl | cmd | arg | status | resp | clkcnt
  deriving DecidableEq, Repr

/-- `off(reg)` (10_state.md R32). -/
def regOffset : Reg → Nat
  | .ctrl => 0x000
  | .cmd => 0x004
  | .arg => 0x008
  | .status => 0x00C
  | .resp => 0x010
  | .clkcnt => 0x014

/-- `WR reg, v` (30_encoding.md R117). -/
def asmWR (r : Reg) (v : Word) : HostAct := .write (regOffset r) 4 v
/-- `RD reg` (30_encoding.md R117). -/
def asmRD (r : Reg) : HostAct := .read (regOffset r) 4
/-- `RDB DATA+k` (30_encoding.md R117). -/
def asmRDB (k : Nat) : HostAct := .read (Config.dataBase + k) 1
/-- `RDW DATA+k` (30_encoding.md R117). -/
def asmRDW (k : Nat) : HostAct := .read (Config.dataBase + k) 4

/-- The word `(crc << 8) | idx` (30_encoding.md R118). -/
def cmdOperand (idx : BitVec 6) (crc : BitVec 8) : Word := (crc.setWidth 32 <<< 8) ||| idx.setWidth 32

/-- `SENDCMD idx, arg, crc` by its four accesses (30_encoding.md R118). -/
def asmSENDCMD (idx : BitVec 6) (arg : BitVec 32) (crc : BitVec 8) : List HostAct :=
  [asmWR .cmd (cmdOperand idx crc), asmWR .arg arg, asmWR .ctrl 1#32, .wait]

/-- `RBLK` (30_encoding.md R118). -/
def asmRBLK : List HostAct := [asmWR .ctrl 2#32, .wait]

/-- `CLK n, cs` (30_encoding.md R118). -/
def asmCLK (n : BitVec 16) (cs : Bool) : List HostAct :=
  [asmWR .clkcnt (((BitVec.ofBool cs).setWidth 32 <<< 16) ||| n.setWidth 32), asmWR .ctrl 3#32, .wait]

/-- `NOP` (30_encoding.md R118). -/
def asmNOP : List HostAct := [asmWR .ctrl 0#32]

/-- The host's first operation after reset: ten idle bytes with CS_n deasserted (70_reset_and_hazards.md R265). -/
def bootIdleClocks : List HostAct := asmCLK 10#16 false

/-- GO_IDLE (70_reset_and_hazards.md R268 step 1). -/
def bootGoIdle : List HostAct := asmSENDCMD 0#6 0#32 0x95#8 ++ [asmRD .status, asmRD .resp]

/-- CHECK_VOLTAGE with its echo drain, whatever the result (70_reset_and_hazards.md R268 step 2). -/
def bootCheckVoltage : List HostAct :=
  asmSENDCMD 8#6 0x1AA#32 0x87#8 ++ [asmRD .status, asmRD .resp] ++ asmCLK 4#16 true

/-- One iteration of ACMD_LOOP (70_reset_and_hazards.md R268 step 3). -/
def bootAcmd : List HostAct :=
  asmSENDCMD 55#6 0#32 0x65#8 ++ asmSENDCMD 41#6 0x40000000#32 0x77#8 ++ [asmRD .status, asmRD .resp]

/-- The vendor command of 70_reset_and_hazards.md R269, with the argument and CRC the source does not give. -/
def bootVendor (arg : BitVec 32) (crc : BitVec 8) : List HostAct :=
  asmSENDCMD 56#6 arg crc ++ [asmRD .status, asmRD .resp]

/-- The host's test after CMD0 and CMD8: accepted with 0x01 (70_reset_and_hazards.md R268). -/
def acceptedIdle (s : State) : Bool := s.status.result == .cmdResp && s.respR1 == 0x01#8

/-- The host's test after ACMD41 and the vendor command: accepted with 0x00 (70_reset_and_hazards.md R268, R269). -/
def acceptedReady (s : State) : Bool := s.status.result == .cmdResp && s.respR1 == 0x00#8

end Sys2Proof.Machine
end

