-- ==== Sys2Proof/Safety.lean ====
section
/-! DEFINITION. What a run is, and in which states one may end: a state with a model fault recorded is none of them
(60_exceptions.md R235). And the invariant of the block that every step keeps. The invariant's clauses are the spec's own relations between pieces of state. -/

namespace Sys2Proof.Machine

/-- No model fault is recorded: the premise of every claim about a host program (60_exceptions.md R235). -/
def State.noFault (s : State) : Bool := s.faults.isEmpty

/-- The host has nothing left to do and the block is in IDLE, so no step changes anything but whose turn it is. -/
def State.quiet (s : State) : Bool := s.env.hostQ.isEmpty && decide (s.phase = .idle)

/-- A final state of a run: quiet, and with no model fault recorded. "A state with a fault recorded is never a final state of a
run" (60_exceptions.md R235). DESIGN CHOICE: what else makes a state final, which the spec does not say, is `State.quiet`
(log 26). -/
def State.final (s : State) : Bool := s.quiet && s.noFault

/-- A run of the machine leads from `s` to `t`. -/
def Reaches (s t : State) : Prop := ∃ k, Host.Core.run Sys2Proof.core k s = .next t

/-- A run from `s` ends in `t`: it leads there and `t` is final. A claim about a host program is a claim about such a `t`. -/
def EndsIn (s t : State) : Prop := Reaches s t ∧ t.final = true

/-- BUSY = 1 exactly when the phase is not IDLE (10_state.md R45), RESULT is NONE while BUSY = 1 (42_bus_clock_and_access.md
R208), and CS_n is deasserted in IDLE (10_state.md R47). -/
def State.busyOk (s : State) : Bool :=
  (s.status.busy == decide (s.phase ≠ .idle)) && (decide (s.phase = .idle) || decide (s.status.result = .none)) &&
    (decide (s.phase ≠ .idle) || s.csN)

/-- The phase's parameter is in its range (10_state.md R45), COUNT is the number of polls or bytes of it so far (R38, R44),
and CS_n has the level of the operation's exchanges between them (40_command_framer.md R148, 41_block_reader.md R178). -/
def State.phaseOk (s : State) : Bool :=
  match s.phase with
  | .idle => true
  | .cmdPrime => s.j == 0#16 && s.status.count == 0#16
  | .cmdPkt => decide (s.j.toNat < 6) && s.status.count == 0#16 && !s.csN
  | .cmdPoll => decide (s.j.toNat < 10) && s.status.count == s.j && !s.csN
  | .tokHunt => decide (s.j.toNat < 1000) && s.status.count == s.j && (s.j == 0#16 || !s.csN)
  | .payload =>
    decide (s.j.toNat < 514) && decide (1 ≤ s.status.count.toNat) && decide (s.status.count.toNat ≤ 1000) && !s.csN
  | .clk =>
    decide (s.j.toNat < s.latch.n.toNat) && s.status.count == s.j && (s.j == 0#16 || s.csN == !s.latch.cs)

/-- What each RESULT says of COUNT, RESP.R1 and the marks while it stands (60_exceptions.md R231, 10_state.md R38, R39). -/
def State.resultOk (s : State) : Bool :=
  match s.status.result with
  | .none => true
  | .cmdResp =>
    s.respW && r1Valid s.respR1 && decide (1 ≤ s.status.count.toNat) && decide (s.status.count.toNat ≤ 10)
  | .cmdNoResp => s.respW && !r1Valid s.respR1 && s.status.count == 10#16
  | .blkOk => s.dataW && decide (1 ≤ s.status.count.toNat) && decide (s.status.count.toNat ≤ 1000)
  | .blkNoToken => s.status.count == 1000#16
  | .clkDone => s.status.count == s.latch.n

/-- The invariant: the three above, and DATA in its canonical form (10_state.md R41; log 7). -/
def State.inv (s : State) : Bool := s.busyOk && s.phaseOk && s.resultOk && Memory.wf s.data

end Sys2Proof.Machine
end

