-- ==== Sys2Proof/Certificates/Slice0/Obligations.lean ====
section
/-! DEFINITION. The statements for the provers. Names under `Claim` are the statements' own vocabulary; a state written out
as a record update of `s` is, field by field, `s` except what is named, so such an equation is also the frame. -/

namespace Sys2Proof.Claim

open Sys2Proof.Machine

/-- It is the host's turn and its oldest pending act is `a`. -/
def HostDoes (s : State) (a : HostAct) (rest : List HostAct) : Prop :=
  turn s = .host ∧ s.env.hostQ = a :: rest

/-- `s` with that act taken off the host's list and the turn used up. -/
def acted (s : State) (rest : List HostAct) : State :=
  { s with env := { s.env with hostQ := rest, sched := s.env.sched.tail } }

/-- `s` with one model fault recorded. -/
def faulted (s : State) (f : Fault) (off : Nat) (v : Option Word) : State :=
  { s with faults := s.faults ++ [⟨f, off, v⟩] }

/-- `s` with one read answered. -/
def answered (s : State) (off n : Nat) (v : Word) : State :=
  { s with env := { s.env with reads := s.env.reads ++ [⟨off, n, v⟩], hostDraws := s.env.hostDraws + 1 } }

/-- `s` after one exchange in the block's turn that sends `tx` with chip-select `cs`, and nothing else of the phase done: the
card's byte taken off the bus, the triple appended to the history, MOSI and CS_n as the exchange drives them. -/
def exchanged (s : State) (tx : Byte) (cs : Bool) : State :=
  { dropRx (popSched s) with history := s.history ++ [⟨tx, nextRx s, cs⟩], mosi := tx, csN := !cs }

/-- `s` with SEND_CMD started on the operands its registers hold. -/
def sendCmdStarted (s : State) : State :=
  { s with
    latch := { s.latch with idx := s.regs.cmdIndex, arg := s.regs.arg, crc := s.regs.cmdCrc }
    status := { busy := true, result := .none, count := 0#16 }
    phase := .cmdPrime
    j := 0#16 }

/-- `s` with CMD and ARG written. -/
def operands (index : BitVec 6) (arg : BitVec 32) (crc : BitVec 8) (s : State) : State :=
  { s with regs := { s.regs with cmdIndex := index, cmdCrc := crc, arg := arg } }

/-- `s` with the host waiting for BUSY = 0 before its next act. -/
def waiting (s : State) : State := { s with env := { s.env with hostQ := .wait :: s.env.hostQ } }

/-- The byte sent in the `k`-th exchange of a SEND_CMD, k = 0 the first: 0xFF, the six packet bytes, then 0xFF. -/
def sendCmdTx (r : HostRegs) (k : Nat) : Byte :=
  if k = 1 then 0x40#8 ||| r.cmdIndex.setWidth 8
  else if k = 2 then r.arg.extractLsb' 24 8
  else if k = 3 then r.arg.extractLsb' 16 8
  else if k = 4 then r.arg.extractLsb' 8 8
  else if k = 5 then r.arg.extractLsb' 0 8
  else if k = 6 then r.cmdCrc
  else 0xFF#8

/-- `n` exchanges from `s` on: what is sent, what the card answers, chip-select. -/
def trace (s : State) (tx : Nat → Byte) (cs : Bool) (n : Nat) : List Exchange :=
  (List.range n).map (fun k => ⟨tx k, rxAt s k, cs⟩)

end Sys2Proof.Claim

open Sys2Proof Sys2Proof.Machine Sys2Proof.Claim

/-! ### Encodings -/

/-- Words written out from 30_encoding.md R110, R112, R100, R101, R115, R104, R105 decode as the tables there say; where the
generic packet row and a named one both match, as in the CMD8, ACMD41 and CMD56 words, the named row is the model's choice
(log 10). A sanity statement. -/
def Obligations.WordsOfTheSpecDecode : Prop :=
  decode (.ctrl 0x00000001#32) = .ok .sendCmd ∧ decode (.ctrl 0x00000003#32) = .ok .clock ∧
  decode (.ctrl 0x00000004#32) = .error .ctrlReserved ∧
  decode (.packet 0x48000001AA87#48) = .ok .cmd8 ∧ decode (.packet 0x694000000077#48) = .ok .acmd41 ∧
  decode (.packet 0x780000000137#48) = .ok (.cmd56 0x00000001#32 0x37#8) ∧
  decode (.packet 0x5112345678AB#48) = .ok (.sdCmd 17#6 0x12345678#32 0xAB#8) ∧
  decode (.packet 0x800000000095#48) = .error .notCommandPacket ∧
  decode (.card 0x05#8) = .ok (.r1 5#7) ∧ decode (.card 0xFE#8) = .ok .startToken ∧
  decode (.card 0xFF#8) = .error .notRecognised

/-- Every well-formed instruction is read back from its own encoding, at every value of its operands. -/
def Obligations.DecodeOfEncodeIsTheInstruction : Prop :=
  ∀ i : Instr, i.wellFormed = true → decode (encode i) = .ok i

/-- No word is read as an instruction whose encoding is another word, and what is read is well-formed (of two packet rows that
match, the named one: log 10). -/
def Obligations.EncodeOfDecodeIsTheWord : Prop :=
  ∀ (x : Wire) (i : Instr), decode x = .ok i → encode i = x ∧ i.wellFormed = true

/-- The six bytes the block sends, side by side from byte 0 in bits [47:40], are the 48 bits of the packet (30_encoding.md
R100), whatever the latches hold. -/
def Obligations.PacketBytesAreThePacketWord : Prop :=
  ∀ l : Latches,
    (pktByte l 0 ++ pktByte l 1 ++ pktByte l 2 ++ pktByte l 3 ++ pktByte l 4 ++ pktByte l 5 : BitVec 48) =
      packetBits l.idx l.arg l.crc

/-- A host address at offset `off` of the window, wherever BASE lies, is decoded to `off` (20_memory.md R71). -/
def Obligations.WindowOffsetIsRelativeToBase : Prop :=
  ∀ off : Nat, off < 0x400 → windowOffset (Config.base + BitVec.ofNat 32 off) = off

/-! ### What a step runs -/

/-- A write to CTRL whose word decodes to `i` runs `i` from the state with the act taken. -/
def Obligations.StepRunsOperationWord : Prop :=
  ∀ (s : State) (w : Word) (rest : List HostAct) (i : Instr),
    HostDoes s (.write 0x000 4 w) rest → decode (.ctrl w) = .ok i → step s = exec i (acted s rest)

/-- A SENDCMD runs the instruction its packet decodes to, from the state with the act taken; every packet has one. -/
def Obligations.StepRunsCommandPacket : Prop :=
  ∀ (s : State) (idx : BitVec 6) (arg : BitVec 32) (crc : BitVec 8) (rest : List HostAct),
    HostDoes s (.sendCmd idx arg crc) rest →
      ∃ i : Instr, decode (.packet (packetBits idx arg crc)) = .ok i ∧ i.wellFormed = true ∧
        step s = exec i (acted s rest)

/-- In the block's turn a byte of the card that decodes to `i` runs `i`, from the state with the byte taken off the bus and
the turn used up. -/
def Obligations.StepRunsCardByte : Prop :=
  ∀ (s : State) (b : Byte) (rest : List Byte) (i : Instr),
    turn s = .block → s.env.miso = b :: rest → decode (.card b) = .ok i →
      step s = exec i { s with env := { s.env with miso := rest, sched := s.env.sched.tail } }

/-- A card that scripts no byte answers as if it had scripted the draw (log 2). -/
def Obligations.FreeCardByteActsAsScripted : Prop :=
  ∀ s : State, s.phase ≠ .idle → turn s = .block → s.env.miso = [] →
    step s =
      step { s with env := { s.env with
        miso := [Config.cardByte s.env.cardDraws], cardDraws := s.env.cardDraws + 1 } }

/-! ### Starting operations -/

/-- NOP is the operation word 0; it does nothing when idle, and raises F_ISSUE_BUSY and does nothing else while BUSY = 1
(42_bus_clock_and_access.md R200). -/
def Obligations.NopDoesNothing : Prop :=
  encode .nop = .ctrl 0x00000000#32 ∧ ∀ s : State,
    (s.status.busy = false → exec .nop s = .next s) ∧
    (s.status.busy = true → exec .nop s = .next (faulted s .issueBusy 0x000 (some 0x00000000#32)))

/-- The start effects of SEND_CMD, READ_BLOCK and CLOCK: the operation's own latches, BUSY = 1, RESULT = NONE, COUNT = 0, the
first phase, and nothing else (42_bus_clock_and_access.md R212, R201; 40_command_framer.md R141; 41_block_reader.md R171). That
CS_n stays as it was until the first exchange is the model's choice (log 13). -/
def Obligations.OperationsStart : Prop :=
  ∀ s : State, s.status.busy = false →
    exec .sendCmd s = .next (sendCmdStarted s) ∧
    exec .readBlock s = .next { s with
      status := { busy := true, result := .none, count := 0#16 }, phase := .tokHunt, j := 0#16 } ∧
    (s.regs.clkN ≠ 0#16 → exec .clock s = .next { s with
      latch := { s.latch with n := s.regs.clkN, cs := s.regs.clkCs },
      status := { busy := true, result := .none, count := 0#16 }, phase := .clk, j := 0#16 })

/-- CLOCK with N = 0 makes no exchange and completes at once (42_bus_clock_and_access.md R202). What the hidden `j` holds
then is open and left out (log 25). -/
def Obligations.ClockOfNoBytesCompletesAtOnce : Prop :=
  ∀ s : State, s.status.busy = false → s.regs.clkN = 0#16 →
    ∃ j : BitVec 16, exec .clock s = .next { s with
      latch := { s.latch with n := 0#16, cs := s.regs.clkCs },
      status := { busy := false, result := .clkDone, count := 0#16 }, phase := .idle, j := j, csN := true }

/-- A write to CTRL is checked for its width, then its reserved bits, then BUSY, and otherwise starts the operation W[1:0]
(42_bus_clock_and_access.md R204; log 3, log 12). -/
def Obligations.CtrlWriteIsCheckedInOrder : Prop :=
  ∀ (s : State) (n : Nat) (w : Word) (rest : List HostAct), HostDoes s (.write 0x000 n w) rest →
    step s =
      if n ≠ 4 then .next (faulted (acted s rest) .access 0x000 (some w))
      else if w.extractLsb' 2 30 ≠ 0#30 then .next (faulted (acted s rest) .reserved 0x000 (some w))
      else if s.status.busy = true then .next (faulted (acted s rest) .issueBusy 0x000 (some w))
      else if w.extractLsb' 0 2 = 0#2 then exec .nop (acted s rest)
      else if w.extractLsb' 0 2 = 1#2 then exec .sendCmd (acted s rest)
      else if w.extractLsb' 0 2 = 2#2 then exec .readBlock (acted s rest)
      else exec .clock (acted s rest)

/-- A command packet run while BUSY = 0: its operands are written to CMD and ARG, SEND_CMD starts on them, and the host waits.
The packet rows' meaning is the model's reading (log 8), and CS_n until the first exchange its choice (log 13). -/
def Obligations.CommandPacketStartsSendCmd : Prop :=
  ∀ s : State, s.status.busy = false →
    (∀ idx arg crc, exec (.sdCmd idx arg crc) s = .next (waiting (sendCmdStarted (operands idx arg crc s)))) ∧
    exec .cmd0 s = .next (waiting (sendCmdStarted (operands 0#6 0x00000000#32 0x95#8 s))) ∧
    exec .cmd8 s = .next (waiting (sendCmdStarted (operands 8#6 0x000001AA#32 0x87#8 s))) ∧
    exec .cmd55 s = .next (waiting (sendCmdStarted (operands 55#6 0x00000000#32 0x65#8 s))) ∧
    exec .acmd41 s = .next (waiting (sendCmdStarted (operands 41#6 0x40000000#32 0x77#8 s))) ∧
    (∀ arg crc, exec (.cmd56 arg crc) s = .next (waiting (sendCmdStarted (operands 56#6 arg crc s))))

/-- A command packet run while BUSY = 1: CMD and ARG are written, the CTRL write raises F_ISSUE_BUSY, and the running operation
goes on (log 8). -/
def Obligations.CommandPacketWhileBusy : Prop :=
  ∀ s : State, s.status.busy = true →
    (∀ idx arg crc, exec (.sdCmd idx arg crc) s =
      .next (waiting (faulted (operands idx arg crc s) .issueBusy 0x000 (some 0x00000001#32)))) ∧
    exec .cmd0 s = exec (.sdCmd 0#6 0x00000000#32 0x95#8) s ∧
    exec .cmd8 s = exec (.sdCmd 8#6 0x000001AA#32 0x87#8) s ∧
    exec .cmd55 s = exec (.sdCmd 55#6 0x00000000#32 0x65#8) s ∧
    exec .acmd41 s = exec (.sdCmd 41#6 0x40000000#32 0x77#8) s ∧
    (∀ arg crc, exec (.cmd56 arg crc) s = exec (.sdCmd 56#6 arg crc) s)

/-- SENDCMD as one transaction and SENDCMD by its accesses `WR CMD`, `WR ARG`, `WR CTRL`, with `WAIT` still to come, lead to
the same state from IDLE (30_encoding.md R118). -/
def Obligations.SendCmdTransactionIsItsExpansion : Prop :=
  ∀ (s : State) (idx : BitVec 6) (arg : BitVec 32) (crc : BitVec 8) (rest : List HostAct),
    s.phase = .idle → s.status.busy = false → s.env.sched = [] → s.env.hostQ = .sendCmd idx arg crc :: rest →
      ∃ t : State, step s = .next t ∧
        Host.Core.run core 3 { s with env := { s.env with hostQ := asmSENDCMD idx arg crc ++ rest } } = .next t

/-! ### The exchanges of SEND_CMD -/

/-- Phase CMD_PRIME: 0xFF is sent with chip-select, what is received is discarded, and CMD_PKT(0) follows
(40_command_framer.md R142). -/
def Obligations.PrimingByteIsSentFirst : Prop :=
  ∀ s : State, turn s = .block → s.phase = .cmdPrime →
    step s = .next { exchanged s 0xFF#8 true with phase := .cmdPkt, j := 0#16 }

/-- Phase CMD_PKT(i): byte i of the packet is sent with chip-select, what is received is discarded, and CMD_PKT(i+1) or
CMD_POLL(1) follows (40_command_framer.md R143). -/
def Obligations.PacketByteIsSent : Prop :=
  ∀ (s : State) (i : Nat), turn s = .block → s.phase = .cmdPkt → s.j.toNat = i → i ≤ 5 →
    step s = .next
      (if i < 5 then { exchanged s (pktByte s.latch i) true with j := BitVec.ofNat 16 (i + 1) }
       else { exchanged s (pktByte s.latch i) true with phase := .cmdPoll, j := 0#16 })

/-- Phase CMD_POLL(n): 0xFF is sent, RESP.R1 takes the byte and COUNT takes n; a byte with bit 7 = 0 completes with CMD_RESP, a
tenth other byte with CMD_NORESP, and else CMD_POLL(n+1) follows (40_command_framer.md R144, R145). What the hidden `j` holds
after a completion is open and left out (log 25). -/
def Obligations.PollTakesTheFirstValidByte : Prop :=
  ∀ (s : State) (n : Nat), turn s = .block → s.phase = .cmdPoll → s.j.toNat + 1 = n → n ≤ 10 →
    ∃ j : BitVec 16, step s = .next
      (if (nextRx s).getLsbD 7 = false then
        { exchanged s 0xFF#8 true with
          respR1 := nextRx s, respW := true, phase := .idle, csN := true, j := j,
          status := { busy := false, result := .cmdResp, count := BitVec.ofNat 16 n } }
       else if n < 10 then
        { exchanged s 0xFF#8 true with
          respR1 := nextRx s, j := BitVec.ofNat 16 n,
          status := { s.status with count := BitVec.ofNat 16 n } }
       else
        { exchanged s 0xFF#8 true with
          respR1 := nextRx s, respW := true, phase := .idle, csN := true, j := j,
          status := { busy := false, result := .cmdNoResp, count := 10#16 } })

/-- The whole of a SEND_CMD with the host's turns out of the way: the exchanges of 30_encoding.md R107 in order, with the
outcome of the first poll whose byte has bit 7 = 0, at poll 10 too; the bytes past it stay on the bus. Whose turn it is with no
schedule, and the card's script, are the model's own (log 1, log 2). -/
def Obligations.SendCmdReportsTheFirstValidPoll : Prop :=
  ∀ (s t : State) (n : Nat), s.status.busy = false → s.env.sched = [] → exec .sendCmd s = .next t →
    1 ≤ n → n ≤ 10 → (∀ m, 1 ≤ m → m < n → (rxAt s (6 + m)).getLsbD 7 = true) →
    (rxAt s (6 + n)).getLsbD 7 = false →
      ∃ u : State, Host.Core.run core (7 + n) t = .next u ∧ u.phase = .idle ∧
        u.status = { busy := false, result := .cmdResp, count := BitVec.ofNat 16 n } ∧
        u.respR1 = rxAt s (6 + n) ∧ u.respW = true ∧ u.csN = true ∧
        u.history = s.history ++ trace s (sendCmdTx s.regs) true (7 + n) ∧
        u.regs = s.regs ∧ u.data = s.data ∧ u.dataW = s.dataW ∧ u.faults = s.faults ∧
        u.env.miso = s.env.miso.drop (7 + n) ∧ u.env.hostQ = s.env.hostQ ∧ u.env.reads = s.env.reads

/-- A SEND_CMD whose ten polls all receive bytes with bit 7 = 1 ends with CMD_NORESP after 17 exchanges (40_command_framer.md
R146; the turns: log 1). -/
def Obligations.SendCmdWithoutResponse : Prop :=
  ∀ s t : State, s.status.busy = false → s.env.sched = [] → exec .sendCmd s = .next t →
    (∀ m, 1 ≤ m → m ≤ 10 → (rxAt s (6 + m)).getLsbD 7 = true) →
      ∃ u : State, Host.Core.run core 17 t = .next u ∧ u.phase = .idle ∧
        u.status = { busy := false, result := .cmdNoResp, count := 10#16 } ∧
        u.respR1 = rxAt s 16 ∧ u.respW = true ∧ u.csN = true ∧
        u.history = s.history ++ trace s (sendCmdTx s.regs) true 17 ∧
        u.regs = s.regs ∧ u.data = s.data ∧ u.dataW = s.dataW ∧ u.faults = s.faults ∧
        u.env.miso = s.env.miso.drop 17 ∧ u.env.hostQ = s.env.hostQ ∧ u.env.reads = s.env.reads

/-! ### The exchanges of READ_BLOCK -/

/-- READ_BLOCK starts its hunt; phase TOK_HUNT(n) sends TOKEN_POLL_TX and writes COUNT = n; exactly 0xFE leads to PAYLOAD(0), a
thousandth other byte to BLK_NOTOKEN with DATA and DATA_W unchanged, and else TOK_HUNT(n+1) follows (41_block_reader.md
R171). The byte sent is TOKEN_POLL_TX of 00_scope.md R8, and the parameter n is `j + 1` (log 11);
what `j` holds after a completion (log 25), and CS_n between the start and the first exchange (log 13), are left out. -/
def Obligations.HuntEndsAtTheToken : Prop :=
  (∀ s : State, s.status.busy = false → ∃ c : Bool, exec .readBlock s = .next { s with
      status := { busy := true, result := .none, count := 0#16 }, phase := .tokHunt, j := 0#16, csN := c }) ∧
  (∀ (s : State) (n : Nat), turn s = .block → s.phase = .tokHunt → s.j.toNat + 1 = n → n ≤ 1000 →
    ∃ j : BitVec 16, step s = .next
      (if nextRx s = 0xFE#8 then
        { exchanged s Config.tokenPollTx true with
          phase := .payload, j := 0#16, status := { s.status with count := BitVec.ofNat 16 n } }
       else if n < 1000 then
        { exchanged s Config.tokenPollTx true with
          j := BitVec.ofNat 16 n, status := { s.status with count := BitVec.ofNat 16 n } }
       else
        { exchanged s Config.tokenPollTx true with
          phase := .idle, csN := true, j := j, status := { busy := false, result := .blkNoToken, count := 1000#16 } }))

/-- Phase PAYLOAD(k), k = 0..511: FILL_TX is sent, DATA[k] takes the byte whatever it is, every other byte of DATA reads as
before, and PAYLOAD(k+1) follows (41_block_reader.md R174). DATA is in its canonical form, which every step keeps. -/
def Obligations.PayloadByteIsStored : Prop :=
  ∀ (s : State) (k : Nat), turn s = .block → s.phase = .payload → s.j.toNat = k → k ≤ 511 →
    Memory.wf s.data = true →
      ∃ d, step s = .next { exchanged s Config.fillTx true with j := BitVec.ofNat 16 (k + 1), data := d } ∧
        (∀ a, Memory.read d a = if a = 0x200 + k then nextRx s else Memory.read s.data a)

/-- Phases PAYLOAD(512) and PAYLOAD(513): FILL_TX is sent and what is received is stored nowhere; after the second READ_BLOCK
completes with BLK_OK and COUNT as the hunt left it (41_block_reader.md R175). What the hidden `j` holds then is left out
(log 25). -/
def Obligations.TrailerIsDiscarded : Prop :=
  ∀ s : State, turn s = .block → s.phase = .payload →
    (s.j = 512#16 → step s = .next { exchanged s Config.fillTx true with j := 513#16 }) ∧
    (s.j = 513#16 → ∃ j : BitVec 16, step s = .next { exchanged s Config.fillTx true with
      phase := .idle, csN := true, dataW := true, j := j,
      status := { s.status with busy := false, result := .blkOk } })

/-- The whole of a READ_BLOCK whose token comes at hunt poll n, n = 1000 too: n + 514 exchanges, BLK_OK, COUNT = n, and DATA[k]
is the k-th byte after the token (30_encoding.md R108, 41_block_reader.md R176, 20_memory.md R78; the turns and the
script: log 1, log 2). -/
def Obligations.ReadBlockStoresThePayload : Prop :=
  ∀ (s t : State) (n : Nat), s.status.busy = false → s.env.sched = [] → Memory.wf s.data = true →
    exec .readBlock s = .next t → 1 ≤ n → n ≤ 1000 →
    (∀ m, 1 ≤ m → m < n → rxAt s (m - 1) ≠ 0xFE#8) → rxAt s (n - 1) = 0xFE#8 →
      ∃ u : State, Host.Core.run core (n + 514) t = .next u ∧ u.phase = .idle ∧
        u.status = { busy := false, result := .blkOk, count := BitVec.ofNat 16 n } ∧ u.dataW = true ∧
        (∀ k, k < 512 → Memory.read u.data (0x200 + k) = rxAt s (n + k)) ∧
        u.history = s.history ++ trace s (fun _ => 0xFF#8) true (n + 514) ∧ u.csN = true ∧
        u.regs = s.regs ∧ u.latch = s.latch ∧ u.respR1 = s.respR1 ∧ u.respW = s.respW ∧ u.faults = s.faults ∧
        u.env.miso = s.env.miso.drop (n + 514) ∧ u.env.hostQ = s.env.hostQ ∧ u.env.reads = s.env.reads

/-- A READ_BLOCK whose thousand hunt polls receive no 0xFE ends with BLK_NOTOKEN after exactly 1000 exchanges, DATA and DATA_W
as before (41_block_reader.md R173; the turns: log 1). -/
def Obligations.ReadBlockWithoutToken : Prop :=
  ∀ s t : State, s.status.busy = false → s.env.sched = [] → exec .readBlock s = .next t →
    (∀ m, m < 1000 → rxAt s m ≠ 0xFE#8) →
      ∃ u : State, Host.Core.run core 1000 t = .next u ∧ u.phase = .idle ∧
        u.status = { busy := false, result := .blkNoToken, count := 1000#16 } ∧
        u.data = s.data ∧ u.dataW = s.dataW ∧ u.csN = true ∧
        u.history = s.history ++ trace s (fun _ => 0xFF#8) true 1000 ∧
        u.regs = s.regs ∧ u.latch = s.latch ∧ u.respR1 = s.respR1 ∧ u.respW = s.respW ∧ u.faults = s.faults ∧
        u.env.miso = s.env.miso.drop 1000 ∧ u.env.hostQ = s.env.hostQ ∧ u.env.reads = s.env.reads

/-! ### CLOCK -/

/-- Phase CLK(c): 0xFF is sent with chip-select L_CS, what is received is discarded, COUNT takes c; the L_N-th completes with
CLK_DONE and COUNT = L_N (42_bus_clock_and_access.md R201). CS_n between a CLOCK's exchanges is log 13, the
byte log 16, and that `j` stays as it is at the completion log 25. -/
def Obligations.ClockByteIsSent : Prop :=
  ∀ (s : State) (c : Nat), turn s = .block → s.phase = .clk → s.j.toNat + 1 = c → c ≤ s.latch.n.toNat →
    step s = .next
      (if c < s.latch.n.toNat then
        { exchanged s 0xFF#8 s.latch.cs with
          j := BitVec.ofNat 16 c, status := { s.status with count := BitVec.ofNat 16 c } }
       else
        { exchanged s 0xFF#8 s.latch.cs with
          phase := .idle, csN := true, status := { busy := false, result := .clkDone, count := s.latch.n } })

/-- The whole of a CLOCK: exactly N exchanges of 0xFF with chip-select CS, then CLK_DONE with COUNT = N, N = 0 too; nothing
received is kept (42_bus_clock_and_access.md R201, R202; 30_encoding.md R109; the turns: log 1; the
byte: log 16). -/
def Obligations.ClockSendsExactlyN : Prop :=
  ∀ s t : State, s.status.busy = false → s.env.sched = [] → exec .clock s = .next t →
    ∃ u : State, Host.Core.run core s.regs.clkN.toNat t = .next u ∧ u.phase = .idle ∧
      u.status = { busy := false, result := .clkDone, count := s.regs.clkN } ∧ u.csN = true ∧
      u.history = s.history ++ trace s (fun _ => 0xFF#8) s.regs.clkCs s.regs.clkN.toNat ∧
      u.regs = s.regs ∧ u.data = s.data ∧ u.dataW = s.dataW ∧ u.respR1 = s.respR1 ∧ u.respW = s.respW ∧
      u.faults = s.faults ∧ u.env.miso = s.env.miso.drop s.regs.clkN.toNat ∧ u.env.hostQ = s.env.hostQ ∧
      u.env.reads = s.env.reads

/-- A completion leaves the hidden counter `j` as it was before the completing exchange, in every operation. The spec does not
say what `j` holds in IDLE: this is the model's choice (log 25). -/
def Obligations.CompletionLeavesTheCounter : Prop :=
  ∀ s t : State, turn s = .block → step s = .next t → t.phase = .idle → t.j = s.j

/-! ### Bytes of the card -/

/-- An R1 byte in CMD_POLL completes SEND_CMD in the same way for every status, 0x00 included (40_command_framer.md R145,
R149, R150; a card byte as an instruction: log 9; that `j` stays: log 25). -/
def Obligations.R1ByteCompletesSendCmd : Prop :=
  ∀ (s : State) (st : BitVec 7), s.phase = .cmdPoll →
    exec (.r1 st) s = .next { s with
      history := s.history ++ [⟨0xFF#8, 0#1 ++ st, true⟩], mosi := 0xFF#8, csN := true,
      respR1 := 0#1 ++ st, respW := true, phase := .idle,
      status := { busy := false, result := .cmdResp, count := s.j + 1#16 } }

/-- The start token in TOK_HUNT leads to PAYLOAD(0), at every poll of the hunt (30_encoding.md R105, 41_block_reader.md
R171; a card byte as an instruction: log 9; the byte sent: log 16). -/
def Obligations.StartTokenEndsTheHunt : Prop :=
  ∀ s : State, s.phase = .tokHunt →
    exec .startToken s = .next { s with
      history := s.history ++ [⟨0xFF#8, 0xFE#8, true⟩], mosi := 0xFF#8, csN := false,
      phase := .payload, j := 0#16, status := { s.status with count := s.j + 1#16 } }

/-- The frame of the two card-byte instructions in every phase: what they leave unchanged, and that RESP.R1, RESP_W, DATA and
DATA_W change only in the phases the spec names; in IDLE the byte stays on the bus and nothing else changes
(40_command_framer.md R147, R151; 41_block_reader.md R172, R174, R175; 42_bus_clock_and_access.md R201). -/
def Obligations.CardByteFrame : Prop :=
  ∀ (s t : State) (i : Instr) (b : Byte),
    ((∃ st : BitVec 7, i = .r1 st ∧ b = 0#1 ++ st) ∨ (i = .startToken ∧ b = 0xFE#8)) →
    exec i s = .next t →
      t.regs = s.regs ∧ t.latch = s.latch ∧ t.faults = s.faults ∧
      (s.phase = .idle → t = { s with env := { s.env with miso := b :: s.env.miso } }) ∧
      (s.phase ≠ .idle → t.env = s.env ∧ ∃ e : Exchange, t.history = s.history ++ [e] ∧ e.rx = b) ∧
      (s.phase ≠ .cmdPoll → t.respR1 = s.respR1 ∧ t.respW = s.respW) ∧
      (s.phase ≠ .payload → t.data = s.data ∧ t.dataW = s.dataW) ∧
      (s.phase = .payload → Memory.wf s.data = true →
        ∀ a, a ≠ 0x200 + s.j.toNat ∨ 512 ≤ s.j.toNat → Memory.read t.data a = Memory.read s.data a)

/-! ### Host accesses -/

/-- Reads of CTRL, CMD, ARG and CLKCNT return the words of their fields, reserved bits 0, and change nothing of the block,
BUSY or not (42_bus_clock_and_access.md R214). -/
def Obligations.RegisterReadsReturnTheFields : Prop :=
  ∀ (s : State) (rest : List HostAct),
    (HostDoes s (.read 0x000 4) rest → step s = .next (answered (acted s rest) 0x000 4 0x00000000#32)) ∧
    (HostDoes s (.read 0x004 4) rest →
      step s = .next (answered (acted s rest) 0x004 4 (0#16 ++ s.regs.cmdCrc ++ 0#2 ++ s.regs.cmdIndex))) ∧
    (HostDoes s (.read 0x008 4) rest → step s = .next (answered (acted s rest) 0x008 4 s.regs.arg)) ∧
    (HostDoes s (.read 0x014 4) rest →
      step s = .next (answered (acted s rest) 0x014 4 (0#15 ++ BitVec.ofBool s.regs.clkCs ++ s.regs.clkN)))

/-- A read of STATUS is always permitted, changes nothing of the block, and returns COUNT, RESULT and BUSY in their places;
while BUSY = 1 RESULT reads NONE and COUNT a value not above its final one (42_bus_clock_and_access.md R208; log 5).
BUSY and RESULT are related as in every state a run reaches: `busyOk`, a part of the invariant. -/
def Obligations.StatusReadShowsTheFields : Prop :=
  ∀ (s : State) (rest : List HostAct), HostDoes s (.read 0x00C 4) rest → s.busyOk = true →
    (s.status.busy = false →
      step s = .next
        (answered (acted s rest) 0x00C 4 (s.status.count ++ 0#12 ++ resultCode s.status.result ++ 0#1))) ∧
    (s.status.busy = true →
      ∃ c : BitVec 16, c.toNat ≤ finalCount s ∧
        step s = .next (answered (acted s rest) 0x00C 4 (c ++ 0#12 ++ 0#3 ++ 1#1)))

/-- A read of RESP: F_READ_BUSY while BUSY = 1, F_UNWRITTEN while RESP_W = 0, each with an unspecified value returned, else
RESP.R1 zero-extended (42_bus_clock_and_access.md R209). That the faulted read is answered is the model's (log 3, log 4). -/
def Obligations.RespRead : Prop :=
  ∀ (s : State) (rest : List HostAct), HostDoes s (.read 0x010 4) rest →
    (s.status.busy = true →
      ∃ v, step s = .next (answered (faulted (acted s rest) .readBusy 0x010 none) 0x010 4 v)) ∧
    (s.status.busy = false → s.respW = false →
      ∃ v, step s = .next (answered (faulted (acted s rest) .unwritten 0x010 none) 0x010 4 v)) ∧
    (s.status.busy = false → s.respW = true →
      step s = .next (answered (acted s rest) 0x010 4 (s.respR1.setWidth 32)))

/-- A read of DATA of 1, 2 or 4 bytes, naturally aligned: F_READ_BUSY while BUSY = 1, F_UNWRITTEN while DATA_W = 0, else the
bytes from that offset, little-endian (42_bus_clock_and_access.md R210, 20_memory.md R77, R82). That the faulted read
is answered is the model's (log 3, log 4). -/
def Obligations.DataRead : Prop :=
  ∀ (s : State) (k n : Nat) (rest : List HostAct), HostDoes s (.read (0x200 + k) n) rest → k < 512 →
    n = 1 ∨ n = 2 ∨ n = 4 → k % n = 0 →
    (s.status.busy = true →
      ∃ v, step s = .next (answered (faulted (acted s rest) .readBusy (0x200 + k) none) (0x200 + k) n v)) ∧
    (s.status.busy = false → s.dataW = false →
      ∃ v, step s = .next (answered (faulted (acted s rest) .unwritten (0x200 + k) none) (0x200 + k) n v)) ∧
    (s.status.busy = false → s.dataW = true →
      ∃ v : Word, step s = .next (answered (acted s rest) (0x200 + k) n v) ∧
        (∀ i, i < n → v.extractLsb' (8 * i) 8 = Memory.read s.data (0x200 + k + i)) ∧ v.toNat < 2 ^ (8 * n))

/-- An access of another offset, width or alignment than 20_memory.md R79(a) and (b) permit records F_ACCESS and has no other
effect on the block, read or write; a read still returns an unspecified value (log 3, log 4, log 23). -/
def Obligations.BadAccessIsRefused : Prop :=
  ∀ (s : State) (off n : Nat) (rest : List HostAct), ¬ (n = 4 ∧ off % 4 = 0 ∧ off ≤ 0x014) →
    (HostDoes s (.read off n) rest →
      ¬ ((n = 1 ∨ n = 2 ∨ n = 4) ∧ off % n = 0 ∧ 0x200 ≤ off ∧ off ≤ 0x3FF) →
      ∃ v, step s = .next (answered (faulted (acted s rest) .access off none) off n v)) ∧
    (∀ w, HostDoes s (.write off n w) rest → step s = .next (faulted (acted s rest) .access off (some w)))

/-- A write to STATUS, RESP, DATA or an unmapped offset, of any width, records F_ACCESS and changes nothing else
(42_bus_clock_and_access.md R211, 20_memory.md R83). -/
def Obligations.ReadOnlyWritesAreRefused : Prop :=
  ∀ (s : State) (off n : Nat) (w : Word) (rest : List HostAct), HostDoes s (.write off n w) rest →
    off = 0x00C ∨ off = 0x010 ∨ (0x018 ≤ off ∧ off ≤ 0x3FF) →
      step s = .next (faulted (acted s rest) .access off (some w))

/-- A write to CMD, ARG or CLKCNT sets its fields, BUSY or not, and nothing else; reserved bits that are not 0 record F_RESERVED
instead (42_bus_clock_and_access.md R205, R206, R207; log 12). -/
def Obligations.RegisterWritesSetTheFields : Prop :=
  ∀ (s : State) (v : Word) (rest : List HostAct),
    (HostDoes s (.write 0x004 4 v) rest →
      step s = .next
        (if v.extractLsb' 6 2 ≠ 0#2 ∨ v.extractLsb' 16 16 ≠ 0#16 then faulted (acted s rest) .reserved 0x004 (some v)
         else { acted s rest with regs :=
           { s.regs with cmdIndex := v.extractLsb' 0 6, cmdCrc := v.extractLsb' 8 8 } })) ∧
    (HostDoes s (.write 0x008 4 v) rest → step s = .next { acted s rest with regs := { s.regs with arg := v } }) ∧
    (HostDoes s (.write 0x014 4 v) rest →
      step s = .next
        (if v.extractLsb' 17 15 ≠ 0#15 then faulted (acted s rest) .reserved 0x014 (some v)
         else { acted s rest with regs :=
           { s.regs with clkN := v.extractLsb' 0 16, clkCs := v.getLsbD 16 } }))

/-- WAIT stays while BUSY = 1 and is done when BUSY = 0, and changes nothing of the block (30_encoding.md R118). -/
def Obligations.WaitEndsWhenNotBusy : Prop :=
  ∀ (s : State) (rest : List HostAct), HostDoes s .wait rest →
    (s.status.busy = true → step s = .next (acted s (.wait :: rest))) ∧
    (s.status.busy = false → step s = .next (acted s rest))

/-! ### Reset -/

/-- Every piece of state that 10_state.md R51 gives a reset value has it after reset, from power-on and by the reset input at
any exchange boundary (70_reset_and_hazards.md R260). -/
def Obligations.ResetLeavesTheSpecifiedValues : Prop :=
  ∀ t : State, (t = State.reset ∨ ∃ s rest, HostDoes s .reset rest ∧ step s = .next t) →
    t.phase = .idle ∧ t.status = { busy := false, result := .none, count := 0#16 } ∧
    t.regs = { cmdIndex := 0#6, cmdCrc := 0#8, arg := 0#32, clkN := 0#16, clkCs := false } ∧
    t.respW = false ∧ t.dataW = false ∧ t.csN = true ∧ t.history = [] ∧ t.faults = []

/-- The reset input ends a running operation with no exchange and no RESULT, and leaves the host and the card as they are
(70_reset_and_hazards.md R261; log 18). -/
def Obligations.ResetInputAbortsTheOperation : Prop :=
  ∀ (s : State) (rest : List HostAct), HostDoes s .reset rest →
    step s = .next { State.reset with env := (acted s rest).env }

/-- The machine right after reset meets the invariant. -/
def Obligations.ResetMeetsTheInvariant : Prop :=
  State.reset.inv = true

/-! ### The whole machine -/

/-- No step stops: the hardware never traps and no card can leave the block stuck (60_exceptions.md R236, R234; that the
machine goes on after a model fault is log 3). -/
def Obligations.EveryStepIsTaken : Prop :=
  ∀ s : State, ∃ t : State, step s = .next t

/-- The invariant is kept by every step, from every state that meets it: BUSY and the phase agree, RESULT is NONE while BUSY,
CS_n is high in IDLE, the phase's parameter is in range, COUNT counts, each RESULT says what 60_exceptions.md R231 records with
it, and DATA stays canonical and inside its window. -/
def Obligations.EveryStepKeepsTheInvariant : Prop :=
  ∀ s t : State, s.inv = true → step s = .next t → t.inv = true

/-- The block's turn makes exactly one exchange outside IDLE, with the card's next byte, and none in IDLE, where nothing changes
but the turn; a host's turn makes none (10_state.md R46, R49; 20_memory.md R76). Chip-select is asserted but in a CLOCK with
L_CS = 0 (40_command_framer.md R148, 41_block_reader.md R178). -/
def Obligations.OneExchangePerBlockStep : Prop :=
  ∀ s t : State, step s = .next t →
    (turn s = .block → s.phase = .idle → t = popSched s) ∧
    (turn s = .block → s.phase ≠ .idle →
      ∃ tx : Byte, t.mosi = tx ∧
        t.history = s.history ++ [⟨tx, nextRx s, if s.phase = .clk then s.latch.cs else true⟩]) ∧
    (turn s = .host → s.env.hostQ.head? ≠ some .reset → t.history = s.history)

/-- A recorded model fault is never cleared but by reset, and a step records at most one (60_exceptions.md R235, R238). -/
def Obligations.FaultsStayUntilReset : Prop :=
  ∀ s t : State, step s = .next t → (turn s = .host ∧ s.env.hostQ.head? = some .reset) ∨
    t.faults = s.faults ∨ ∃ r : FaultRecord, t.faults = s.faults ++ [r]

/-- Once a model fault is recorded, no run ends, whatever the host and the card do short of a reset: the record only grows, and
no state the run leads to is final (60_exceptions.md R235; what a final state is otherwise: log 26). -/
def Obligations.FaultedRunNeverEnds : Prop :=
  ∀ s t : State, s.noFault = false → HostAct.reset ∉ s.env.hostQ → Reaches s t →
    (∃ more : List FaultRecord, t.faults = s.faults ++ more) ∧ t.final = false ∧ ¬ EndsIn s t

/-- A final state is the end of its run: every further run changes nothing but whose turn it is, and is final too (log 26). -/
def Obligations.FinalStatesStay : Prop :=
  ∀ s t : State, s.final = true → Reaches s t →
    t.final = true ∧ ∃ sched : List Agent, t = { s with env := { s.env with sched := sched } }

/-- Only the payload exchanges of READ_BLOCK change DATA, only the poll exchanges of SEND_CMD change RESP.R1, and only reset
besides (10_state.md R41, R39). -/
def Obligations.OnlyTheirPhasesWriteDataAndResp : Prop :=
  ∀ s t : State, step s = .next t →
    (t.data ≠ s.data → (turn s = .block ∧ s.phase = .payload ∧ s.j.toNat < 512) ∨
      (turn s = .host ∧ s.env.hostQ.head? = some .reset)) ∧
    (t.respR1 ≠ s.respR1 → (turn s = .block ∧ s.phase = .cmdPoll) ∨
      (turn s = .host ∧ s.env.hostQ.head? = some .reset))

/-- The latches change only at the start of an operation or at reset: never while BUSY = 1 (10_state.md R43). In the
block's turn they never change. -/
def Obligations.LatchesAreFixedWhileBusy : Prop :=
  ∀ s t : State, step s = .next t → s.status.busy = true ∨ turn s = .block →
    t.latch = s.latch ∨ (turn s = .host ∧ s.env.hostQ.head? = some .reset)

/-- An operation in progress does not read the host registers: over any number of exchanges, two states that differ only in
CMD, ARG and CLKCNT stay equal but for them (10_state.md R43, 70_reset_and_hazards.md R275). -/
def Obligations.RunningOperationIgnoresRegisterWrites : Prop :=
  ∀ (k : Nat) (s : State) (r : HostRegs), s.env.sched = List.replicate k .block →
    ∃ t : State, Host.Core.run core k s = .next t ∧ Host.Core.run core k { s with regs := r } = .next { t with regs := r }

/-- What `finalCount` says COUNT will be is kept by every exchange and is COUNT when the operation is over: the bound of a
STATUS read while BUSY = 1 is the true final value (10_state.md R38; log 5). -/
def Obligations.FinalCountIsKeptToTheEnd : Prop :=
  ∀ s t : State, s.inv = true → turn s = .block → step s = .next t →
    finalCount t = finalCount s ∧ (t.phase = .idle → t.status.count.toNat = finalCount s)

/-- Every operation that runs is over within the bound of its kind, when the host leaves it the bus
(42_bus_clock_and_access.md R213, 60_exceptions.md R236). -/
def Obligations.RunningOperationEndsWithinItsBound : Prop :=
  ∀ s : State, s.inv = true → s.env.sched = [] → s.status.busy = true →
    ∃ (k : Nat) (t : State), Host.Core.run core k s = .next t ∧ t.status.busy = false ∧ t.phase = .idle ∧
      t.status.result ≠ .none ∧ t.history.length = s.history.length + k ∧
      k ≤ (match s.phase with
        | .idle => 0
        | .cmdPrime => 17
        | .cmdPkt => 16
        | .cmdPoll => 10
        | .tokHunt => 1514
        | .payload => 514
        | .clk => s.latch.n.toNat)

/-- A permitted read repeated at once returns the same value, but for STATUS while BUSY = 1 (20_memory.md R84). -/
def Obligations.ReadsAreIdempotent : Prop :=
  ∀ (s t u : State) (off n : Nat) (rest : List HostAct), HostDoes s (.read off n) (.read off n :: rest) →
    readFault off n s = none → (off = 0x00C → s.status.busy = false) → step s = .next t → turn t = .host →
    step t = .next u →
      ∃ v : Word, u.env.reads = s.env.reads ++ [⟨off, n, v⟩, ⟨off, n, v⟩] ∧ u.faults = s.faults ∧
        u.status = s.status ∧ u.regs = s.regs ∧ u.data = s.data ∧ u.respR1 = s.respR1 ∧ u.phase = s.phase
end

