-- ==== Sys2Proof/Laws/State.lean ====
section
/-! SUPPORT. What each named update does to each field of the state: one lemma per field and update, so that no proof
unfolds a record update. -/

namespace Sys2Proof.Machine

@[simp] theorem raise_regs (f : Fault) (off : Nat) (v : Option Word) (s : State) :
    (raise f off v s).regs = s.regs := rfl
@[simp] theorem raise_status (f : Fault) (off : Nat) (v : Option Word) (s : State) :
    (raise f off v s).status = s.status := rfl
@[simp] theorem raise_respR1 (f : Fault) (off : Nat) (v : Option Word) (s : State) :
    (raise f off v s).respR1 = s.respR1 := rfl
@[simp] theorem raise_respW (f : Fault) (off : Nat) (v : Option Word) (s : State) :
    (raise f off v s).respW = s.respW := rfl
@[simp] theorem raise_data (f : Fault) (off : Nat) (v : Option Word) (s : State) :
    (raise f off v s).data = s.data := rfl
@[simp] theorem raise_dataW (f : Fault) (off : Nat) (v : Option Word) (s : State) :
    (raise f off v s).dataW = s.dataW := rfl
@[simp] theorem raise_latch (f : Fault) (off : Nat) (v : Option Word) (s : State) :
    (raise f off v s).latch = s.latch := rfl
@[simp] theorem raise_phase (f : Fault) (off : Nat) (v : Option Word) (s : State) :
    (raise f off v s).phase = s.phase := rfl
@[simp] theorem raise_j (f : Fault) (off : Nat) (v : Option Word) (s : State) : (raise f off v s).j = s.j := rfl
@[simp] theorem raise_csN (f : Fault) (off : Nat) (v : Option Word) (s : State) : (raise f off v s).csN = s.csN := rfl
@[simp] theorem raise_mosi (f : Fault) (off : Nat) (v : Option Word) (s : State) :
    (raise f off v s).mosi = s.mosi := rfl
@[simp] theorem raise_history (f : Fault) (off : Nat) (v : Option Word) (s : State) :
    (raise f off v s).history = s.history := rfl
@[simp] theorem raise_faults (f : Fault) (off : Nat) (v : Option Word) (s : State) :
    (raise f off v s).faults = s.faults ++ [⟨f, off, v⟩] := rfl
@[simp] theorem raise_env (f : Fault) (off : Nat) (v : Option Word) (s : State) : (raise f off v s).env = s.env := rfl

@[simp] theorem xchg_regs (tx : Byte) (cs : Bool) (rx : Byte) (s : State) : (xchg tx cs rx s).regs = s.regs := rfl
@[simp] theorem xchg_status (tx : Byte) (cs : Bool) (rx : Byte) (s : State) :
    (xchg tx cs rx s).status = s.status := rfl
@[simp] theorem xchg_respR1 (tx : Byte) (cs : Bool) (rx : Byte) (s : State) :
    (xchg tx cs rx s).respR1 = s.respR1 := rfl
@[simp] theorem xchg_respW (tx : Byte) (cs : Bool) (rx : Byte) (s : State) : (xchg tx cs rx s).respW = s.respW := rfl
@[simp] theorem xchg_data (tx : Byte) (cs : Bool) (rx : Byte) (s : State) : (xchg tx cs rx s).data = s.data := rfl
@[simp] theorem xchg_dataW (tx : Byte) (cs : Bool) (rx : Byte) (s : State) : (xchg tx cs rx s).dataW = s.dataW := rfl
@[simp] theorem xchg_latch (tx : Byte) (cs : Bool) (rx : Byte) (s : State) : (xchg tx cs rx s).latch = s.latch := rfl
@[simp] theorem xchg_phase (tx : Byte) (cs : Bool) (rx : Byte) (s : State) : (xchg tx cs rx s).phase = s.phase := rfl
@[simp] theorem xchg_j (tx : Byte) (cs : Bool) (rx : Byte) (s : State) : (xchg tx cs rx s).j = s.j := rfl
@[simp] theorem xchg_csN (tx : Byte) (cs : Bool) (rx : Byte) (s : State) :
    (xchg tx cs rx s).csN = !(cs && Config.csGapHeld) := rfl
@[simp] theorem xchg_mosi (tx : Byte) (cs : Bool) (rx : Byte) (s : State) : (xchg tx cs rx s).mosi = tx := rfl
@[simp] theorem xchg_history (tx : Byte) (cs : Bool) (rx : Byte) (s : State) :
    (xchg tx cs rx s).history = s.history ++ [⟨tx, rx, cs⟩] := rfl
@[simp] theorem xchg_faults (tx : Byte) (cs : Bool) (rx : Byte) (s : State) :
    (xchg tx cs rx s).faults = s.faults := rfl
@[simp] theorem xchg_env (tx : Byte) (cs : Bool) (rx : Byte) (s : State) : (xchg tx cs rx s).env = s.env := rfl

@[simp] theorem enter_regs (p : Phase) (s : State) : (enter p s).regs = s.regs := rfl
@[simp] theorem enter_status (p : Phase) (s : State) : (enter p s).status = s.status := rfl
@[simp] theorem enter_respR1 (p : Phase) (s : State) : (enter p s).respR1 = s.respR1 := rfl
@[simp] theorem enter_respW (p : Phase) (s : State) : (enter p s).respW = s.respW := rfl
@[simp] theorem enter_data (p : Phase) (s : State) : (enter p s).data = s.data := rfl
@[simp] theorem enter_dataW (p : Phase) (s : State) : (enter p s).dataW = s.dataW := rfl
@[simp] theorem enter_latch (p : Phase) (s : State) : (enter p s).latch = s.latch := rfl
@[simp] theorem enter_phase (p : Phase) (s : State) : (enter p s).phase = p := rfl
@[simp] theorem enter_j (p : Phase) (s : State) : (enter p s).j = 0#16 := rfl
@[simp] theorem enter_csN (p : Phase) (s : State) : (enter p s).csN = s.csN := rfl
@[simp] theorem enter_mosi (p : Phase) (s : State) : (enter p s).mosi = s.mosi := rfl
@[simp] theorem enter_history (p : Phase) (s : State) : (enter p s).history = s.history := rfl
@[simp] theorem enter_faults (p : Phase) (s : State) : (enter p s).faults = s.faults := rfl
@[simp] theorem enter_env (p : Phase) (s : State) : (enter p s).env = s.env := rfl

@[simp] theorem advance_regs (s : State) : (advance s).regs = s.regs := rfl
@[simp] theorem advance_status (s : State) : (advance s).status = s.status := rfl
@[simp] theorem advance_respR1 (s : State) : (advance s).respR1 = s.respR1 := rfl
@[simp] theorem advance_respW (s : State) : (advance s).respW = s.respW := rfl
@[simp] theorem advance_data (s : State) : (advance s).data = s.data := rfl
@[simp] theorem advance_dataW (s : State) : (advance s).dataW = s.dataW := rfl
@[simp] theorem advance_latch (s : State) : (advance s).latch = s.latch := rfl
@[simp] theorem advance_phase (s : State) : (advance s).phase = s.phase := rfl
@[simp] theorem advance_j (s : State) : (advance s).j = s.j + 1#16 := rfl
@[simp] theorem advance_csN (s : State) : (advance s).csN = s.csN := rfl
@[simp] theorem advance_mosi (s : State) : (advance s).mosi = s.mosi := rfl
@[simp] theorem advance_history (s : State) : (advance s).history = s.history := rfl
@[simp] theorem advance_faults (s : State) : (advance s).faults = s.faults := rfl
@[simp] theorem advance_env (s : State) : (advance s).env = s.env := rfl

@[simp] theorem setCount_regs (n : BitVec 16) (s : State) : (setCount n s).regs = s.regs := rfl
@[simp] theorem setCount_status (n : BitVec 16) (s : State) :
    (setCount n s).status = { s.status with count := n } := rfl
@[simp] theorem setCount_respR1 (n : BitVec 16) (s : State) : (setCount n s).respR1 = s.respR1 := rfl
@[simp] theorem setCount_respW (n : BitVec 16) (s : State) : (setCount n s).respW = s.respW := rfl
@[simp] theorem setCount_data (n : BitVec 16) (s : State) : (setCount n s).data = s.data := rfl
@[simp] theorem setCount_dataW (n : BitVec 16) (s : State) : (setCount n s).dataW = s.dataW := rfl
@[simp] theorem setCount_latch (n : BitVec 16) (s : State) : (setCount n s).latch = s.latch := rfl
@[simp] theorem setCount_phase (n : BitVec 16) (s : State) : (setCount n s).phase = s.phase := rfl
@[simp] theorem setCount_j (n : BitVec 16) (s : State) : (setCount n s).j = s.j := rfl
@[simp] theorem setCount_csN (n : BitVec 16) (s : State) : (setCount n s).csN = s.csN := rfl
@[simp] theorem setCount_mosi (n : BitVec 16) (s : State) : (setCount n s).mosi = s.mosi := rfl
@[simp] theorem setCount_history (n : BitVec 16) (s : State) : (setCount n s).history = s.history := rfl
@[simp] theorem setCount_faults (n : BitVec 16) (s : State) : (setCount n s).faults = s.faults := rfl
@[simp] theorem setCount_env (n : BitVec 16) (s : State) : (setCount n s).env = s.env := rfl

@[simp] theorem begin_regs (p : Phase) (s : State) : (begin p s).regs = s.regs := rfl
@[simp] theorem begin_status (p : Phase) (s : State) :
    (begin p s).status = { busy := true, result := .none, count := 0#16 } := rfl
@[simp] theorem begin_respR1 (p : Phase) (s : State) : (begin p s).respR1 = s.respR1 := rfl
@[simp] theorem begin_respW (p : Phase) (s : State) : (begin p s).respW = s.respW := rfl
@[simp] theorem begin_data (p : Phase) (s : State) : (begin p s).data = s.data := rfl
@[simp] theorem begin_dataW (p : Phase) (s : State) : (begin p s).dataW = s.dataW := rfl
@[simp] theorem begin_latch (p : Phase) (s : State) : (begin p s).latch = s.latch := rfl
@[simp] theorem begin_phase (p : Phase) (s : State) : (begin p s).phase = p := rfl
@[simp] theorem begin_j (p : Phase) (s : State) : (begin p s).j = 0#16 := rfl
@[simp] theorem begin_csN (p : Phase) (s : State) : (begin p s).csN = s.csN := rfl
@[simp] theorem begin_mosi (p : Phase) (s : State) : (begin p s).mosi = s.mosi := rfl
@[simp] theorem begin_history (p : Phase) (s : State) : (begin p s).history = s.history := rfl
@[simp] theorem begin_faults (p : Phase) (s : State) : (begin p s).faults = s.faults := rfl
@[simp] theorem begin_env (p : Phase) (s : State) : (begin p s).env = s.env := rfl

@[simp] theorem complete_regs (r : Result) (s : State) : (complete r s).regs = s.regs := rfl
@[simp] theorem complete_status (r : Result) (s : State) :
    (complete r s).status = { s.status with busy := false, result := r } := rfl
@[simp] theorem complete_respR1 (r : Result) (s : State) : (complete r s).respR1 = s.respR1 := rfl
@[simp] theorem complete_respW (r : Result) (s : State) : (complete r s).respW = s.respW := rfl
@[simp] theorem complete_data (r : Result) (s : State) : (complete r s).data = s.data := rfl
@[simp] theorem complete_dataW (r : Result) (s : State) : (complete r s).dataW = s.dataW := rfl
@[simp] theorem complete_latch (r : Result) (s : State) : (complete r s).latch = s.latch := rfl
@[simp] theorem complete_phase (r : Result) (s : State) : (complete r s).phase = .idle := rfl
@[simp] theorem complete_j (r : Result) (s : State) : (complete r s).j = s.j := rfl
@[simp] theorem complete_csN (r : Result) (s : State) : (complete r s).csN = true := rfl
@[simp] theorem complete_mosi (r : Result) (s : State) : (complete r s).mosi = s.mosi := rfl
@[simp] theorem complete_history (r : Result) (s : State) : (complete r s).history = s.history := rfl
@[simp] theorem complete_faults (r : Result) (s : State) : (complete r s).faults = s.faults := rfl
@[simp] theorem complete_env (r : Result) (s : State) : (complete r s).env = s.env := rfl

@[simp] theorem putBack_regs (rx : Byte) (s : State) : (putBack rx s).regs = s.regs := rfl
@[simp] theorem putBack_status (rx : Byte) (s : State) : (putBack rx s).status = s.status := rfl
@[simp] theorem putBack_respR1 (rx : Byte) (s : State) : (putBack rx s).respR1 = s.respR1 := rfl
@[simp] theorem putBack_respW (rx : Byte) (s : State) : (putBack rx s).respW = s.respW := rfl
@[simp] theorem putBack_data (rx : Byte) (s : State) : (putBack rx s).data = s.data := rfl
@[simp] theorem putBack_dataW (rx : Byte) (s : State) : (putBack rx s).dataW = s.dataW := rfl
@[simp] theorem putBack_latch (rx : Byte) (s : State) : (putBack rx s).latch = s.latch := rfl
@[simp] theorem putBack_phase (rx : Byte) (s : State) : (putBack rx s).phase = s.phase := rfl
@[simp] theorem putBack_j (rx : Byte) (s : State) : (putBack rx s).j = s.j := rfl
@[simp] theorem putBack_csN (rx : Byte) (s : State) : (putBack rx s).csN = s.csN := rfl
@[simp] theorem putBack_mosi (rx : Byte) (s : State) : (putBack rx s).mosi = s.mosi := rfl
@[simp] theorem putBack_history (rx : Byte) (s : State) : (putBack rx s).history = s.history := rfl
@[simp] theorem putBack_faults (rx : Byte) (s : State) : (putBack rx s).faults = s.faults := rfl
@[simp] theorem putBack_env (rx : Byte) (s : State) :
    (putBack rx s).env = { s.env with miso := rx :: s.env.miso } := rfl

@[simp] theorem popSched_regs (s : State) : (popSched s).regs = s.regs := rfl
@[simp] theorem popSched_status (s : State) : (popSched s).status = s.status := rfl
@[simp] theorem popSched_respR1 (s : State) : (popSched s).respR1 = s.respR1 := rfl
@[simp] theorem popSched_respW (s : State) : (popSched s).respW = s.respW := rfl
@[simp] theorem popSched_data (s : State) : (popSched s).data = s.data := rfl
@[simp] theorem popSched_dataW (s : State) : (popSched s).dataW = s.dataW := rfl
@[simp] theorem popSched_latch (s : State) : (popSched s).latch = s.latch := rfl
@[simp] theorem popSched_phase (s : State) : (popSched s).phase = s.phase := rfl
@[simp] theorem popSched_j (s : State) : (popSched s).j = s.j := rfl
@[simp] theorem popSched_csN (s : State) : (popSched s).csN = s.csN := rfl
@[simp] theorem popSched_mosi (s : State) : (popSched s).mosi = s.mosi := rfl
@[simp] theorem popSched_history (s : State) : (popSched s).history = s.history := rfl
@[simp] theorem popSched_faults (s : State) : (popSched s).faults = s.faults := rfl
@[simp] theorem popSched_env (s : State) : (popSched s).env = { s.env with sched := s.env.sched.tail } := rfl

@[simp] theorem popHost_regs (s : State) : (popHost s).regs = s.regs := rfl
@[simp] theorem popHost_status (s : State) : (popHost s).status = s.status := rfl
@[simp] theorem popHost_respR1 (s : State) : (popHost s).respR1 = s.respR1 := rfl
@[simp] theorem popHost_respW (s : State) : (popHost s).respW = s.respW := rfl
@[simp] theorem popHost_data (s : State) : (popHost s).data = s.data := rfl
@[simp] theorem popHost_dataW (s : State) : (popHost s).dataW = s.dataW := rfl
@[simp] theorem popHost_latch (s : State) : (popHost s).latch = s.latch := rfl
@[simp] theorem popHost_phase (s : State) : (popHost s).phase = s.phase := rfl
@[simp] theorem popHost_j (s : State) : (popHost s).j = s.j := rfl
@[simp] theorem popHost_csN (s : State) : (popHost s).csN = s.csN := rfl
@[simp] theorem popHost_mosi (s : State) : (popHost s).mosi = s.mosi := rfl
@[simp] theorem popHost_history (s : State) : (popHost s).history = s.history := rfl
@[simp] theorem popHost_faults (s : State) : (popHost s).faults = s.faults := rfl
@[simp] theorem popHost_env (s : State) : (popHost s).env = { s.env with hostQ := s.env.hostQ.tail } := rfl

@[simp] theorem pushWait_regs (s : State) : (pushWait s).regs = s.regs := rfl
@[simp] theorem pushWait_status (s : State) : (pushWait s).status = s.status := rfl
@[simp] theorem pushWait_respR1 (s : State) : (pushWait s).respR1 = s.respR1 := rfl
@[simp] theorem pushWait_respW (s : State) : (pushWait s).respW = s.respW := rfl
@[simp] theorem pushWait_data (s : State) : (pushWait s).data = s.data := rfl
@[simp] theorem pushWait_dataW (s : State) : (pushWait s).dataW = s.dataW := rfl
@[simp] theorem pushWait_latch (s : State) : (pushWait s).latch = s.latch := rfl
@[simp] theorem pushWait_phase (s : State) : (pushWait s).phase = s.phase := rfl
@[simp] theorem pushWait_j (s : State) : (pushWait s).j = s.j := rfl
@[simp] theorem pushWait_csN (s : State) : (pushWait s).csN = s.csN := rfl
@[simp] theorem pushWait_mosi (s : State) : (pushWait s).mosi = s.mosi := rfl
@[simp] theorem pushWait_history (s : State) : (pushWait s).history = s.history := rfl
@[simp] theorem pushWait_faults (s : State) : (pushWait s).faults = s.faults := rfl
@[simp] theorem pushWait_env (s : State) : (pushWait s).env = { s.env with hostQ := .wait :: s.env.hostQ } := rfl

@[simp] theorem answer_regs (off n : Nat) (v : Word) (s : State) : (answer off n v s).regs = s.regs := rfl
@[simp] theorem answer_status (off n : Nat) (v : Word) (s : State) : (answer off n v s).status = s.status := rfl
@[simp] theorem answer_respR1 (off n : Nat) (v : Word) (s : State) : (answer off n v s).respR1 = s.respR1 := rfl
@[simp] theorem answer_respW (off n : Nat) (v : Word) (s : State) : (answer off n v s).respW = s.respW := rfl
@[simp] theorem answer_data (off n : Nat) (v : Word) (s : State) : (answer off n v s).data = s.data := rfl
@[simp] theorem answer_dataW (off n : Nat) (v : Word) (s : State) : (answer off n v s).dataW = s.dataW := rfl
@[simp] theorem answer_latch (off n : Nat) (v : Word) (s : State) : (answer off n v s).latch = s.latch := rfl
@[simp] theorem answer_phase (off n : Nat) (v : Word) (s : State) : (answer off n v s).phase = s.phase := rfl
@[simp] theorem answer_j (off n : Nat) (v : Word) (s : State) : (answer off n v s).j = s.j := rfl
@[simp] theorem answer_csN (off n : Nat) (v : Word) (s : State) : (answer off n v s).csN = s.csN := rfl
@[simp] theorem answer_mosi (off n : Nat) (v : Word) (s : State) : (answer off n v s).mosi = s.mosi := rfl
@[simp] theorem answer_history (off n : Nat) (v : Word) (s : State) : (answer off n v s).history = s.history := rfl
@[simp] theorem answer_faults (off n : Nat) (v : Word) (s : State) : (answer off n v s).faults = s.faults := rfl
@[simp] theorem answer_env (off n : Nat) (v : Word) (s : State) :
    (answer off n v s).env = { s.env with reads := s.env.reads ++ [⟨off, n, v⟩], hostDraws := s.env.hostDraws + 1 } := rfl

@[simp] theorem loadOperands_regs (index : BitVec 6) (arg : BitVec 32) (crc : BitVec 8) (s : State) :
    (loadOperands index arg crc s).regs = { s.regs with cmdIndex := index, cmdCrc := crc, arg := arg } := rfl
@[simp] theorem loadOperands_status (index : BitVec 6) (arg : BitVec 32) (crc : BitVec 8) (s : State) :
    (loadOperands index arg crc s).status = s.status := rfl
@[simp] theorem loadOperands_respR1 (index : BitVec 6) (arg : BitVec 32) (crc : BitVec 8) (s : State) :
    (loadOperands index arg crc s).respR1 = s.respR1 := rfl
@[simp] theorem loadOperands_respW (index : BitVec 6) (arg : BitVec 32) (crc : BitVec 8) (s : State) :
    (loadOperands index arg crc s).respW = s.respW := rfl
@[simp] theorem loadOperands_data (index : BitVec 6) (arg : BitVec 32) (crc : BitVec 8) (s : State) :
    (loadOperands index arg crc s).data = s.data := rfl
@[simp] theorem loadOperands_dataW (index : BitVec 6) (arg : BitVec 32) (crc : BitVec 8) (s : State) :
    (loadOperands index arg crc s).dataW = s.dataW := rfl
@[simp] theorem loadOperands_latch (index : BitVec 6) (arg : BitVec 32) (crc : BitVec 8) (s : State) :
    (loadOperands index arg crc s).latch = s.latch := rfl
@[simp] theorem loadOperands_phase (index : BitVec 6) (arg : BitVec 32) (crc : BitVec 8) (s : State) :
    (loadOperands index arg crc s).phase = s.phase := rfl
@[simp] theorem loadOperands_j (index : BitVec 6) (arg : BitVec 32) (crc : BitVec 8) (s : State) :
    (loadOperands index arg crc s).j = s.j := rfl
@[simp] theorem loadOperands_csN (index : BitVec 6) (arg : BitVec 32) (crc : BitVec 8) (s : State) :
    (loadOperands index arg crc s).csN = s.csN := rfl
@[simp] theorem loadOperands_mosi (index : BitVec 6) (arg : BitVec 32) (crc : BitVec 8) (s : State) :
    (loadOperands index arg crc s).mosi = s.mosi := rfl
@[simp] theorem loadOperands_history (index : BitVec 6) (arg : BitVec 32) (crc : BitVec 8) (s : State) :
    (loadOperands index arg crc s).history = s.history := rfl
@[simp] theorem loadOperands_faults (index : BitVec 6) (arg : BitVec 32) (crc : BitVec 8) (s : State) :
    (loadOperands index arg crc s).faults = s.faults := rfl
@[simp] theorem loadOperands_env (index : BitVec 6) (arg : BitVec 32) (crc : BitVec 8) (s : State) :
    (loadOperands index arg crc s).env = s.env := rfl

@[simp] theorem storePayload_regs (k : Nat) (b : Byte) (s : State) : (storePayload k b s).regs = s.regs := rfl
@[simp] theorem storePayload_status (k : Nat) (b : Byte) (s : State) : (storePayload k b s).status = s.status := rfl
@[simp] theorem storePayload_respR1 (k : Nat) (b : Byte) (s : State) : (storePayload k b s).respR1 = s.respR1 := rfl
@[simp] theorem storePayload_respW (k : Nat) (b : Byte) (s : State) : (storePayload k b s).respW = s.respW := rfl
@[simp] theorem storePayload_data (k : Nat) (b : Byte) (s : State) :
    (storePayload k b s).data = Memory.write s.data (Config.dataBase + k) b := rfl
@[simp] theorem storePayload_dataW (k : Nat) (b : Byte) (s : State) : (storePayload k b s).dataW = s.dataW := rfl
@[simp] theorem storePayload_latch (k : Nat) (b : Byte) (s : State) : (storePayload k b s).latch = s.latch := rfl
@[simp] theorem storePayload_phase (k : Nat) (b : Byte) (s : State) : (storePayload k b s).phase = s.phase := rfl
@[simp] theorem storePayload_j (k : Nat) (b : Byte) (s : State) : (storePayload k b s).j = s.j := rfl
@[simp] theorem storePayload_csN (k : Nat) (b : Byte) (s : State) : (storePayload k b s).csN = s.csN := rfl
@[simp] theorem storePayload_mosi (k : Nat) (b : Byte) (s : State) : (storePayload k b s).mosi = s.mosi := rfl
@[simp] theorem storePayload_history (k : Nat) (b : Byte) (s : State) :
    (storePayload k b s).history = s.history := rfl
@[simp] theorem storePayload_faults (k : Nat) (b : Byte) (s : State) : (storePayload k b s).faults = s.faults := rfl
@[simp] theorem storePayload_env (k : Nat) (b : Byte) (s : State) : (storePayload k b s).env = s.env := rfl

@[simp] theorem finishCmd_regs (r : Result) (s : State) : (finishCmd r s).regs = s.regs := rfl
@[simp] theorem finishCmd_status (r : Result) (s : State) :
    (finishCmd r s).status = { s.status with busy := false, result := r } := rfl
@[simp] theorem finishCmd_respR1 (r : Result) (s : State) : (finishCmd r s).respR1 = s.respR1 := rfl
@[simp] theorem finishCmd_respW (r : Result) (s : State) : (finishCmd r s).respW = true := rfl
@[simp] theorem finishCmd_data (r : Result) (s : State) : (finishCmd r s).data = s.data := rfl
@[simp] theorem finishCmd_dataW (r : Result) (s : State) : (finishCmd r s).dataW = s.dataW := rfl
@[simp] theorem finishCmd_latch (r : Result) (s : State) : (finishCmd r s).latch = s.latch := rfl
@[simp] theorem finishCmd_phase (r : Result) (s : State) : (finishCmd r s).phase = .idle := rfl
@[simp] theorem finishCmd_j (r : Result) (s : State) : (finishCmd r s).j = s.j := rfl
@[simp] theorem finishCmd_csN (r : Result) (s : State) : (finishCmd r s).csN = true := rfl
@[simp] theorem finishCmd_mosi (r : Result) (s : State) : (finishCmd r s).mosi = s.mosi := rfl
@[simp] theorem finishCmd_history (r : Result) (s : State) : (finishCmd r s).history = s.history := rfl
@[simp] theorem finishCmd_faults (r : Result) (s : State) : (finishCmd r s).faults = s.faults := rfl
@[simp] theorem finishCmd_env (r : Result) (s : State) : (finishCmd r s).env = s.env := rfl

@[simp] theorem finishBlock_regs (s : State) : (finishBlock s).regs = s.regs := rfl
@[simp] theorem finishBlock_status (s : State) :
    (finishBlock s).status = { s.status with busy := false, result := .blkOk } := rfl
@[simp] theorem finishBlock_respR1 (s : State) : (finishBlock s).respR1 = s.respR1 := rfl
@[simp] theorem finishBlock_respW (s : State) : (finishBlock s).respW = s.respW := rfl
@[simp] theorem finishBlock_data (s : State) : (finishBlock s).data = s.data := rfl
@[simp] theorem finishBlock_dataW (s : State) : (finishBlock s).dataW = true := rfl
@[simp] theorem finishBlock_latch (s : State) : (finishBlock s).latch = s.latch := rfl
@[simp] theorem finishBlock_phase (s : State) : (finishBlock s).phase = .idle := rfl
@[simp] theorem finishBlock_j (s : State) : (finishBlock s).j = s.j := rfl
@[simp] theorem finishBlock_csN (s : State) : (finishBlock s).csN = true := rfl
@[simp] theorem finishBlock_mosi (s : State) : (finishBlock s).mosi = s.mosi := rfl
@[simp] theorem finishBlock_history (s : State) : (finishBlock s).history = s.history := rfl
@[simp] theorem finishBlock_faults (s : State) : (finishBlock s).faults = s.faults := rfl
@[simp] theorem finishBlock_env (s : State) : (finishBlock s).env = s.env := rfl

@[simp] theorem hardReset_regs (s : State) : (hardReset s).regs = State.reset.regs := rfl
@[simp] theorem hardReset_status (s : State) : (hardReset s).status = State.reset.status := rfl
@[simp] theorem hardReset_respR1 (s : State) : (hardReset s).respR1 = State.reset.respR1 := rfl
@[simp] theorem hardReset_respW (s : State) : (hardReset s).respW = State.reset.respW := rfl
@[simp] theorem hardReset_data (s : State) : (hardReset s).data = State.reset.data := rfl
@[simp] theorem hardReset_dataW (s : State) : (hardReset s).dataW = State.reset.dataW := rfl
@[simp] theorem hardReset_latch (s : State) : (hardReset s).latch = State.reset.latch := rfl
@[simp] theorem hardReset_phase (s : State) : (hardReset s).phase = State.reset.phase := rfl
@[simp] theorem hardReset_j (s : State) : (hardReset s).j = State.reset.j := rfl
@[simp] theorem hardReset_csN (s : State) : (hardReset s).csN = State.reset.csN := rfl
@[simp] theorem hardReset_mosi (s : State) : (hardReset s).mosi = State.reset.mosi := rfl
@[simp] theorem hardReset_history (s : State) : (hardReset s).history = State.reset.history := rfl
@[simp] theorem hardReset_faults (s : State) : (hardReset s).faults = State.reset.faults := rfl
@[simp] theorem hardReset_env (s : State) : (hardReset s).env = s.env := rfl

/-! Taking a byte off the bus changes only the card's side of the environment. -/

@[simp] theorem dropRx_regs (s : State) : (dropRx s).regs = s.regs := by unfold dropRx; split <;> rfl
@[simp] theorem dropRx_status (s : State) : (dropRx s).status = s.status := by unfold dropRx; split <;> rfl
@[simp] theorem dropRx_respR1 (s : State) : (dropRx s).respR1 = s.respR1 := by unfold dropRx; split <;> rfl
@[simp] theorem dropRx_respW (s : State) : (dropRx s).respW = s.respW := by unfold dropRx; split <;> rfl
@[simp] theorem dropRx_data (s : State) : (dropRx s).data = s.data := by unfold dropRx; split <;> rfl
@[simp] theorem dropRx_dataW (s : State) : (dropRx s).dataW = s.dataW := by unfold dropRx; split <;> rfl
@[simp] theorem dropRx_latch (s : State) : (dropRx s).latch = s.latch := by unfold dropRx; split <;> rfl
@[simp] theorem dropRx_phase (s : State) : (dropRx s).phase = s.phase := by unfold dropRx; split <;> rfl
@[simp] theorem dropRx_j (s : State) : (dropRx s).j = s.j := by unfold dropRx; split <;> rfl
@[simp] theorem dropRx_csN (s : State) : (dropRx s).csN = s.csN := by unfold dropRx; split <;> rfl
@[simp] theorem dropRx_mosi (s : State) : (dropRx s).mosi = s.mosi := by unfold dropRx; split <;> rfl
@[simp] theorem dropRx_history (s : State) : (dropRx s).history = s.history := by unfold dropRx; split <;> rfl
@[simp] theorem dropRx_faults (s : State) : (dropRx s).faults = s.faults := by unfold dropRx; split <;> rfl
@[simp] theorem dropRx_hostQ (s : State) : (dropRx s).env.hostQ = s.env.hostQ := by unfold dropRx; split <;> rfl
@[simp] theorem dropRx_sched (s : State) : (dropRx s).env.sched = s.env.sched := by unfold dropRx; split <;> rfl
@[simp] theorem dropRx_reads (s : State) : (dropRx s).env.reads = s.env.reads := by unfold dropRx; split <;> rfl
@[simp] theorem dropRx_hostDraws (s : State) : (dropRx s).env.hostDraws = s.env.hostDraws := by unfold dropRx; split <;> rfl

end Sys2Proof.Machine
end

