-- ==== Sys2Proof/Laws/Ops.lean ====
section
/-! SUPPORT. What each shared operation can do, said once: DATA storage, the card's answers, the host's accesses, whose turn
it is, and what a step is made of. -/

namespace Sys2Proof.Machine

/-! ### DATA storage (10_state.md R41) -/

theorem Memory.read_below (m : List Host.Cell) (lo a : Nat) (h : Memory.wfFrom lo m = true) (ha : a < lo) :
    Memory.read m a = 0#8 := by
  induction m generalizing lo with
  | nil => rfl
  | cons c rest ih =>
    simp only [Memory.wfFrom, Bool.and_eq_true, decide_eq_true_eq] at h
    have hne : c.1 ≠ a := by omega
    simp only [Memory.read, hne, if_false]
    exact ih (c.1 + 1) h.2 (by omega)

theorem Memory.read_write (m : List Host.Cell) (a b : Nat) (v : Byte) (lo : Nat) (h : Memory.wfFrom lo m = true) :
    Memory.read (Memory.write m a v) b = if b = a then v else Memory.read m b := by
  induction m generalizing lo with
  | nil =>
    by_cases hv : v = 0#8 <;> by_cases hb : b = a
    · simp [Memory.write, Memory.read, hv]
    · simp [Memory.write, Memory.read, hv]
    · simp [Memory.write, Memory.read, hv, hb]
    · simp [Memory.write, Memory.read, hv, hb, Ne.symm hb]
  | cons c rest ih =>
    obtain ⟨k, x⟩ := c
    simp only [Memory.wfFrom, Bool.and_eq_true, decide_eq_true_eq] at h
    rcases Nat.lt_trichotomy a k with hlt | heq | hgt
    · have hz : Memory.read rest a = 0#8 := Memory.read_below rest (k + 1) a h.2 (by omega)
      have hka : k ≠ a := by omega
      by_cases hv : v = 0#8 <;> by_cases hb : b = a
      · simp [Memory.write, Memory.read, hlt, hv, hb, hz, hka]
      · simp [Memory.write, hlt, hv, hb]
      · simp [Memory.write, Memory.read, hlt, hv, hb]
      · simp [Memory.write, Memory.read, hlt, hv, hb, Ne.symm hb]
    · subst heq
      have hz : Memory.read rest a = 0#8 := Memory.read_below rest (a + 1) a h.2 (by omega)
      by_cases hv : v = 0#8 <;> by_cases hb : b = a
      · simp [Memory.write, hv, hb, hz]
      · simp [Memory.write, Memory.read, hv, hb, Ne.symm hb]
      · simp [Memory.write, Memory.read, hv, hb]
      · simp [Memory.write, Memory.read, hv, hb, Ne.symm hb]
    · have h1 : ¬ a < k := by omega
      have h2 : ¬ a = k := by omega
      simp only [Memory.write, h1, h2, if_false, Memory.read, ih (k + 1) h.2]
      by_cases hb : b = a
      · simp [hb, Ne.symm h2]
      · simp [hb]

theorem Memory.wfFrom_mono {lo lo' : Nat} (hl : lo' ≤ lo) (m : List Host.Cell) (h : Memory.wfFrom lo m = true) :
    Memory.wfFrom lo' m = true := by
  cases m with
  | nil => rfl
  | cons c rest =>
    simp only [Memory.wfFrom, Bool.and_eq_true, decide_eq_true_eq] at h ⊢
    exact ⟨⟨by omega, h.1.2⟩, h.2⟩

theorem Memory.write_wfFrom (m : List Host.Cell) (a : Nat) (v : Byte) (lo : Nat) (ha : lo ≤ a)
    (h : Memory.wfFrom lo m = true) : Memory.wfFrom lo (Memory.write m a v) = true := by
  induction m generalizing lo with
  | nil =>
    unfold Memory.write
    split <;> simp_all [Memory.wfFrom]
  | cons c rest ih =>
    obtain ⟨k, x⟩ := c
    have h' := h
    simp only [Memory.wfFrom, Bool.and_eq_true, decide_eq_true_eq] at h'
    unfold Memory.write
    rcases Nat.lt_trichotomy a k with hlt | heq | hgt
    · have hk : a + 1 ≤ k := hlt
      by_cases hv : v = 0#8 <;> simp_all [Memory.wfFrom]
    · subst heq
      have hm := Memory.wfFrom_mono (lo' := lo) (by omega) rest h'.2
      by_cases hv : v = 0#8 <;> simp_all [Memory.wfFrom]
    · have h1 : ¬ a < k := by omega
      have h2 : ¬ a = k := by omega
      simp only [h1, h2, if_false, Memory.wfFrom, Bool.and_eq_true, decide_eq_true_eq]
      exact ⟨h'.1, ih (k + 1) hgt h'.2⟩

theorem Memory.mem_write (m : List Host.Cell) (a : Nat) (v : Byte) (c : Host.Cell) (h : c ∈ Memory.write m a v) :
    c = (a, v) ∨ c ∈ m := by
  induction m with
  | nil =>
    unfold Memory.write at h
    split at h
    · exact absurd h (by simp)
    · exact .inl (by simpa using h)
  | cons d rest ih =>
    obtain ⟨k, x⟩ := d
    unfold Memory.write at h
    split at h
    · split at h
      · exact .inr h
      · simpa using h
    · split at h
      · split at h
        · exact .inr (List.mem_cons_of_mem _ h)
        · rcases List.mem_cons.mp h with h | h
          · exact .inl h
          · exact .inr (List.mem_cons_of_mem _ h)
      · rcases List.mem_cons.mp h with h | h
        · exact .inr (by simp [h])
        · exact (ih h).imp_right (List.mem_cons_of_mem _)

/-- Every memory operation keeps the canonical form (20_memory.md R78, 10_state.md R41). -/
theorem Memory.write_wf (m : List Host.Cell) (a : Nat) (v : Byte) (ha : Config.dataBase ≤ a)
    (hb : a < Config.windowSize) (h : Memory.wf m = true) : Memory.wf (Memory.write m a v) = true := by
  simp only [Memory.wf, Bool.and_eq_true] at h ⊢
  exact ⟨Memory.write_wfFrom m a v _ ha h.1,
    List.all_eq_true.mpr fun c hc => (Memory.mem_write m a v c hc).elim
      (fun e => by subst e; exact decide_eq_true hb) (List.all_eq_true.mp h.2 c)⟩

theorem reset_data_wf : Memory.wf State.reset.data = true := by decide

/-! ### The card's answers (00_scope.md R12, 20_memory.md R75) -/

theorem rxAt_zero (s : State) : rxAt s 0 = nextRx s := by
  unfold rxAt nextRx
  cases s.env.miso <;> simp

theorem rxAt_dropRx (s : State) (k : Nat) : rxAt (dropRx s) k = rxAt s (k + 1) := by
  unfold rxAt dropRx
  cases h : s.env.miso with
  | nil =>
    simp only [h, List.getElem?_nil, List.length_nil, Nat.sub_zero]
    congr 1
    omega
  | cons b rest => simp

/-- The card's answers depend only on its script and the draws. -/
theorem rxAt_congr {s t : State} (hm : s.env.miso = t.env.miso) (hd : s.env.cardDraws = t.env.cardDraws) :
    rxAt s = rxAt t := by
  funext k
  unfold rxAt
  rw [hm, hd]

/-- The final COUNT depends only on the phase, the counters, and the card's coming bytes. -/
theorem finalCount_congr {s t : State} (hr : rxAt s = rxAt t) (hp : s.phase = t.phase) (hj : s.j = t.j)
    (hc : s.status.count = t.status.count) (hn : s.latch.n = t.latch.n) : finalCount s = finalCount t := by
  unfold finalCount
  rw [hr, hp, hj, hc, hn]

theorem dropRx_scripted {s : State} {b : Byte} {rest : List Byte} (h : s.env.miso = b :: rest) :
    nextRx s = b ∧ dropRx s = { s with env := { s.env with miso := rest } } := by
  unfold nextRx dropRx
  rw [h]
  exact ⟨rfl, rfl⟩

/-! ### Whose turn it is (20_memory.md R76, R85) -/

theorem turn_host_default {s : State} (hs : s.env.sched = []) (hp : s.phase = .idle) (hq : s.env.hostQ ≠ []) :
    turn s = .host := by
  unfold turn
  rw [hs]
  simp [hp, hq]

theorem turn_block_default {s : State} (hs : s.env.sched = []) (hp : s.phase ≠ .idle) : turn s = .block := by
  unfold turn
  rw [hs]
  simp [hp]

theorem popSched_default {s : State} (hs : s.env.sched = []) : popSched s = s := by
  obtain ⟨_, _, _, _, _, _, _, _, _, _, _, _, _, ⟨_, sched, _, _, _, _⟩⟩ := s
  simp only at hs
  subst hs
  rfl

/-! ### Starting an operation (42_bus_clock_and_access.md R204) -/

theorem issue_idle {w : Word} {start : State → State} {s : State} (h : s.status.busy = false) :
    issue w start s = start s := by
  simp [issue, h]

theorem issue_busy {w : Word} {start : State → State} {s : State} (h : s.status.busy = true) :
    issue w start s = raise .issueBusy 0 (some w) s := by
  simp [issue, h]

/-! ### Decoding a byte of the card (30_encoding.md R104, R105) -/

theorem r1_word (b : Byte) (h : b.getLsbD 7 = false) : (0#1 ++ b.extractLsb' 0 7 : BitVec 8) = b := by
  revert b
  decide

/-- The block's turn outside IDLE is the exchange of its phase with the card's next byte, whether or not that byte is an
instruction word (10_state.md R46). -/
theorem step_block {s : State} (ht : turn s = .block) (hp : s.phase ≠ .idle) :
    step s = .next (blockStep (nextRx s) (dropRx (popSched s))) := by
  have hn : nextRx (popSched s) = nextRx s := rfl
  unfold step fetch
  rw [ht]
  simp only [fetchBlock, popSched_phase, hp, false_and, if_false, hn, decode, decodeCard]
  by_cases h7 : (nextRx s).getLsbD 7 = false
  · simp only [h7, if_true, exec, execR1, r1_word _ h7]
  · by_cases he : nextRx s = 0xFE#8
    · simp [he, exec, execStartToken]
    · rw [if_neg h7, if_neg he]

/-! ### Host accesses (20_memory.md R80 to R83) -/

/-- A read changes nothing of the block but, if it raises a model fault, the fault record. -/
theorem memRead_cases (off n : Nat) (s : State) :
    (∃ f, readFault off n s = some f ∧ memRead off n s = answer off n (openValue n s) (raise f off none s)) ∨
    (readFault off n s = none ∧ memRead off n s = answer off n (readValue off n s) s) := by
  unfold memRead
  cases h : readFault off n s with
  | some f => exact .inl ⟨f, rfl, rfl⟩
  | none => exact .inr ⟨rfl, rfl⟩

theorem writeReg_regs (off : Nat) (v : Word) (s : State) : ∃ r, writeReg off v s = { s with regs := r } := by
  unfold writeReg
  split
  · exact ⟨_, rfl⟩
  · exact ⟨_, rfl⟩
  · exact ⟨_, rfl⟩
  · exact ⟨s.regs, rfl⟩

/-- A write but to CTRL either raises one model fault, or changes CMD, ARG or CLKCNT and nothing else. -/
theorem memWrite_cases (off n : Nat) (v : Word) (s : State) :
    (∃ f, writeFault off n v = some f ∧ memWrite off n v s = raise f off (some v) s) ∨
    (writeFault off n v = none ∧ ∃ r, memWrite off n v s = { s with regs := r }) := by
  unfold memWrite
  cases h : writeFault off n v with
  | some f => exact .inl ⟨f, rfl, rfl⟩
  | none => exact .inr ⟨rfl, writeReg_regs off v s⟩

/-- The invariant looks at the block's own state only: not at the host's registers, the bus, the faults or the agents. -/
theorem inv_congr {s t : State} (hst : s.status = t.status) (hp : s.phase = t.phase) (hj : s.j = t.j)
    (hcs : s.csN = t.csN) (hr : s.respR1 = t.respR1) (hrw : s.respW = t.respW) (hd : s.data = t.data)
    (hdw : s.dataW = t.dataW) (hl : s.latch = t.latch) : s.inv = t.inv := by
  simp only [State.inv, State.busyOk, State.phaseOk, State.resultOk, hst, hp, hj, hcs, hr, hrw, hd, hdw, hl]

/-! ### What a step is made of -/

/-- Everything a host's turn can be: nothing pending, a read, a write that is no operation, an instruction of the host, a
WAIT that stays or ends, a reset. -/
theorem fetchHost_cases (s : State) :
    (s.env.hostQ = [] ∧ fetchHost s = .moved s) ∨
    (∃ off n rest, s.env.hostQ = .read off n :: rest ∧ fetchHost s = .moved (memRead off n (popHost s))) ∨
    (∃ off n v rest f, s.env.hostQ = .write off n v :: rest ∧
      fetchHost s = .moved (raise f off (some v) (popHost s))) ∨
    (∃ r, fetchHost s = .moved { popHost s with regs := r }) ∨
    (∃ w rest i, s.env.hostQ = .write 0 4 w :: rest ∧ decode (.ctrl w) = .ok i ∧
      fetchHost s = .run i (popHost s)) ∨
    (∃ idx arg crc rest, s.env.hostQ = .sendCmd idx arg crc :: rest ∧
      fetchHost s = .run (packetInstr idx arg crc) (popHost s)) ∨
    (∃ rest, s.env.hostQ = .wait :: rest ∧
      fetchHost s = .moved (if s.status.busy then s else popHost s)) ∨
    (∃ rest, s.env.hostQ = .reset :: rest ∧ fetchHost s = .moved (hardReset (popHost s))) := by
  unfold fetchHost
  cases hq : s.env.hostQ with
  | nil => exact .inl ⟨rfl, rfl⟩
  | cons a rest =>
    cases a with
    | read off n => exact .inr (.inl ⟨off, n, rest, rfl, rfl⟩)
    | sendCmd idx arg crc =>
      exact .inr (.inr (.inr (.inr (.inr (.inl ⟨idx, arg, crc, rest, rfl, rfl⟩)))))
    | wait => exact .inr (.inr (.inr (.inr (.inr (.inr (.inl ⟨rest, rfl, rfl⟩))))))
    | reset => exact .inr (.inr (.inr (.inr (.inr (.inr (.inr ⟨rest, rfl, rfl⟩))))))
    | write off n v =>
      dsimp only
      unfold fetchWrite
      split
      · rename_i h
        obtain ⟨h0, hr⟩ := h
        subst h0
        have hn : n = 4 := by
          simp [regAccess] at hr
          exact hr
        subst hn
        cases hd : decode (.ctrl v) with
        | ok i => exact .inr (.inr (.inr (.inr (.inl ⟨v, rest, i, rfl, hd, rfl⟩))))
        | error e => exact .inr (.inr (.inl ⟨0, 4, v, rest, .reserved, rfl, rfl⟩))
      · rcases memWrite_cases off n v (popHost s) with ⟨f, _, hm⟩ | ⟨_, r, hm⟩
        · exact .inr (.inr (.inl ⟨off, n, v, rest, f, rfl, by rw [hm]⟩))
        · exact .inr (.inr (.inr (.inl ⟨r, by rw [hm]⟩)))

/-- Everything the block's turn can be: nothing to do, an instruction word of the card, another byte of the card. -/
theorem fetchBlock_cases (s : State) :
    (s.phase = .idle ∧ s.env.miso = [] ∧ fetchBlock s = .moved s) ∨
    (∃ i, decode (.card (nextRx s)) = .ok i ∧ fetchBlock s = .run i (dropRx s)) ∨
    (∃ e, decode (.card (nextRx s)) = .error e ∧ fetchBlock s = .moved (blockStep (nextRx s) (dropRx s))) := by
  unfold fetchBlock
  by_cases h : s.phase = .idle ∧ s.env.miso = []
  · exact .inl ⟨h.1, h.2, if_pos h⟩
  · rw [if_neg h]
    cases hd : decode (.card (nextRx s)) with
    | ok i => exact .inr (.inl ⟨i, rfl, rfl⟩)
    | error e => exact .inr (.inr ⟨e, rfl, rfl⟩)

end Sys2Proof.Machine
end

