-- ==== Sys2Proof/Laws/PerInstr.lean ====
section
/-! SUPPORT. The family RowMatch, said of every instruction: its encoding is a word of its own row of
spec/opcode_table.json, in the row's width, mask and match. -/

namespace Sys2Proof.Laws.RowMatch

/-- The encoding of `i` has the width of its row, and its bits under the row's mask are the row's match. -/
def Statement (i : Instr) : Prop :=
  (encode i).width = i.row.width ∧ (encode i).bits &&& i.row.mask = i.row.value

theorem nop : Statement .nop := by constructor <;> decide
theorem sendCmd : Statement .sendCmd := by constructor <;> decide
theorem readBlock : Statement .readBlock := by constructor <;> decide
theorem clock : Statement .clock := by constructor <;> decide

/-- The two marker bits of a packet under the mask of SD_CMD (any index) (30_encoding.md R100). -/
theorem packetBits_marker (index : BitVec 6) (arg : BitVec 32) (crc : BitVec 8) :
    packetBits index arg crc &&& 0xC00000000000#48 = 0x400000000000#48 := by
  apply BitVec.eq_of_getLsbD_eq
  intro i hi
  simp only [packetBits, BitVec.getLsbD_and, BitVec.getLsbD_append]
  interval_cases i <;> simp

/-- Byte 0 of a packet of index 56 under the mask of CMD56 (30_encoding.md R115). -/
theorem packetBits_cmd56 (arg : BitVec 32) (crc : BitVec 8) :
    packetBits 56#6 arg crc &&& 0xFF0000000000#48 = 0x780000000000#48 := by
  apply BitVec.eq_of_getLsbD_eq
  intro i hi
  simp only [packetBits, BitVec.getLsbD_and, BitVec.getLsbD_append]
  interval_cases i <;> simp

theorem sdCmd (index : BitVec 6) (arg : BitVec 32) (crc : BitVec 8) : Statement (.sdCmd index arg crc) :=
  ⟨rfl, by simpa [encode, Wire.bits, Instr.row] using congrArg BitVec.toNat (packetBits_marker index arg crc)⟩

theorem cmd0 : Statement .cmd0 := by constructor <;> decide
theorem cmd8 : Statement .cmd8 := by constructor <;> decide
theorem cmd55 : Statement .cmd55 := by constructor <;> decide
theorem acmd41 : Statement .acmd41 := by constructor <;> decide

theorem cmd56 (arg : BitVec 32) (crc : BitVec 8) : Statement (.cmd56 arg crc) :=
  ⟨rfl, by simpa [encode, Wire.bits, Instr.row] using congrArg BitVec.toNat (packetBits_cmd56 arg crc)⟩

theorem r1 (status : BitVec 7) : Statement (.r1 status) := by
  refine ⟨rfl, ?_⟩
  revert status
  decide

theorem startToken : Statement .startToken := by constructor <;> decide

end Sys2Proof.Laws.RowMatch
end

