-- ==== Sys2Proof/Laws/Run.lean ====
section
/-! SUPPORT. Runs of several steps: one step at a time, in two parts, what every step keeps, and the block left to itself. -/

namespace Sys2Proof.Machine

theorem run_next {s t : State} (k : Nat) (h : step s = .next t) :
    Host.Core.run Sys2Proof.core (k + 1) s = Host.Core.run Sys2Proof.core k t := by
  have h' : Sys2Proof.core.step s = .next t := h
  have e := Host.Core.run.eq_2 Sys2Proof.core s k
  rw [h'] at e
  exact e

theorem run_add {s t : State} (m k : Nat) (h : Host.Core.run Sys2Proof.core m s = .next t) :
    Host.Core.run Sys2Proof.core (m + k) s = Host.Core.run Sys2Proof.core k t := by
  induction m generalizing s with
  | zero =>
    have e : s = t := by
      have h' : (Host.Outcome.next s : Host.Outcome State Fault Refusal) = .next t := h
      injection h'
    rw [e, Nat.zero_add]
  | succ m ih =>
    have hs : ∃ u, step s = .next u := by
      unfold step
      split
      · rename_i i _ _
        cases i <;> exact ⟨_, rfl⟩
      · exact ⟨_, rfl⟩
    obtain ⟨u, hu⟩ := hs
    rw [run_next m hu] at h
    rw [Nat.add_right_comm, run_next (m + k) hu]
    exact ih h

theorem final_iff (s : State) : s.final = true ↔ s.env.hostQ = [] ∧ s.phase = .idle ∧ s.faults = [] := by
  simp [State.final, State.quiet, State.noFault, and_assoc]

theorem reaches_refl (s : State) : Reaches s s := ⟨0, rfl⟩

/-- What every step keeps, every run keeps. -/
theorem reaches_keeps {P : State → Prop} (hP : ∀ s t, P s → step s = .next t → P t) {s t : State} (h : Reaches s t)
    (hs : P s) : P t := by
  obtain ⟨k, hk⟩ := h
  induction k generalizing s with
  | zero =>
    injection (show (Host.Outcome.next s : Host.Outcome State Fault Refusal) = .next t from hk) with e
    exact e ▸ hs
  | succ k ih =>
    have e := Host.Core.run.eq_2 Sys2Proof.core s k
    cases hu : step s with
    | next u => exact ih (hP s u hs hu) (run_next k hu ▸ hk)
    | fault r => rw [show Sys2Proof.core.step s = .fault r from hu] at e; exact nomatch e.symm.trans hk
    | refused r => rw [show Sys2Proof.core.step s = .refused r from hu] at e; exact nomatch e.symm.trans hk

/-- With no schedule the running block takes every turn: its step is the exchange of its phase. -/
theorem step_running {s : State} (hs : s.env.sched = []) (hp : s.phase ≠ .idle) :
    step s = .next (blockStep (nextRx s) (dropRx s)) := by
  rw [step_block (turn_block_default hs hp) hp, popSched_default hs]

end Sys2Proof.Machine
end

