-- ==== Sys2Proof/Tests/Slice0.lean ====
section
/-! SUPPORT. The model's own tests: words written out from 30_encoding.md, the ill-formed terms WellFormed refuses, one step of
each instruction against 95_test_vectors.md, and for every obligation a state that meets its hypotheses. -/

namespace Sys2Proof.Tests

open Sys2Proof.Machine Sys2Proof.Claim

/-! ### States to start from -/

/-- The state after a step; `s` itself if there is none. -/
def after (s : State) : State :=
  match step s with
  | .next t => t
  | .fault _ => s
  | .refused _ => s

/-- The state after an instruction; `s` itself if there is none. -/
def run1 (i : Instr) (s : State) : State :=
  match exec i s with
  | .next t => t
  | .fault _ => s
  | .refused _ => s

/-- A running operation at exchange `j` of a phase, with COUNT `c`. -/
def busyIn (p : Phase) (j c : Nat) : State :=
  { State.reset with
    phase := p, j := BitVec.ofNat 16 j, csN := false
    status := { busy := true, result := .none, count := BitVec.ofNat 16 c }
    latch := { idx := 17#6, arg := 0x12345678#32, crc := 0xAB#8, n := 4#16, cs := true } }

/-- IDLE with CMD = 0x0000AB11, ARG = 0x12345678 and CLKCNT = 0x00010004. -/
def loaded : State :=
  { State.reset with
    regs := { cmdIndex := 17#6, cmdCrc := 0xAB#8, arg := 0x12345678#32, clkN := 4#16, clkCs := true } }

/-- IDLE after CMD_RESP with COUNT = 3: STATUS = 0x00030002 (95_test_vectors.md). -/
def responded : State :=
  { State.reset with status := { busy := false, result := .cmdResp, count := 3#16 }, respR1 := 0x01#8, respW := true }

/-- IDLE after BLK_OK with DATA = 0, 1, 2, 3, 4, 5, 6, 7, then zeros. -/
def filled : State :=
  { State.reset with
    status := { busy := false, result := .blkOk, count := 1#16 }, dataW := true
    data := [(0x201, 1#8), (0x202, 2#8), (0x203, 3#8), (0x204, 4#8), (0x205, 5#8), (0x206, 6#8), (0x207, 7#8)] }

/-- `s` with these bytes scripted for the card. -/
def answering (s : State) (bs : List Byte) : State := { s with env := { s.env with miso := bs } }

/-- The value of the latest host read. -/
def lastRead (s : State) : Option Word := s.env.reads.getLast?.map HostRead.value

/-- The latest exchange. -/
def lastXchg (s : State) : Option Exchange := s.history.getLast?

/-- The codes of the recorded model faults. -/
def codes (s : State) : List Nat := s.faults.map (fun r => faultCode r.fault)

/-! ### Decoding: words written out from 30_encoding.md -/

theorem test_decode_nop : decodeTableWord 32 0b00000000000000000000000000000000 = some .nop := by decide
theorem test_decode_send_cmd : decodeTableWord 32 0b00000000000000000000000000000001 = some .sendCmd := by decide
theorem test_decode_read_block : decodeTableWord 32 0b00000000000000000000000000000010 = some .readBlock := by decide
theorem test_decode_clock : decodeTableWord 32 0b00000000000000000000000000000011 = some .clock := by decide
/-- R112(a): the first reserved bit, bit 2. -/
theorem test_decode_ctrl_reserved : decode (.ctrl 0b00000000000000000000000000000100#32) = .error .ctrlReserved := by rfl
/-- R100 with index 17, argument 0x12345678, CRC 0xAB (95_test_vectors.md 2.1): 51 12 34 56 78 AB. -/
theorem test_decode_sd_cmd :
    decodeTableWord 48 0b010100010001001000110100010101100111100010101011 = some (.sdCmd 17#6 0x12345678#32 0xAB#8) := by
  decide
/-- 95_test_vectors.md 2.1: 7F FF FF FF FF 00 is index 63. -/
theorem test_decode_sd_cmd_63 : decodeTableWord 48 0x7FFFFFFFFF00 = some (.sdCmd 63#6 0xFFFFFFFF#32 0x00#8) := by decide
/-- 95_test_vectors.md 2.1: CMD0 with the CRC byte 0xFE is not the row CMD0. -/
theorem test_decode_cmd0_other_crc : decodeTableWord 48 0x4000000000FE = some (.sdCmd 0#6 0#32 0xFE#8) := by decide
/-- R115: 40 00 00 00 00 95. -/
theorem test_decode_cmd0 :
    decodeTableWord 48 0b010000000000000000000000000000000000000010010101 = some .cmd0 := by decide
/-- R115: 48 00 00 01 AA 87. -/
theorem test_decode_cmd8 :
    decodeTableWord 48 0b010010000000000000000000000000011010101010000111 = some .cmd8 := by decide
/-- R115: 77 00 00 00 00 65. -/
theorem test_decode_cmd55 :
    decodeTableWord 48 0b011101110000000000000000000000000000000001100101 = some .cmd55 := by decide
/-- R115: 69 40 00 00 00 77. -/
theorem test_decode_acmd41 :
    decodeTableWord 48 0b011010010100000000000000000000000000000001110111 = some .acmd41 := by decide
/-- 95_test_vectors.md 3.3: 78 00 00 00 01 37. -/
theorem test_decode_cmd56 :
    decodeTableWord 48 0b011110000000000000000000000000000000000100110111 = some (.cmd56 0x00000001#32 0x37#8) := by decide
/-- R101: a start bit of 1 is no packet. -/
theorem test_decode_no_packet : decode (.packet 0xC00000000095#48) = .error .notCommandPacket := by rfl
theorem test_decode_r1 : decodeTableWord 8 0b00000101 = some (.r1 5#7) := by decide
theorem test_decode_r1_zero : decodeTableWord 8 0b00000000 = some (.r1 0#7) := by decide
theorem test_decode_start_token : decodeTableWord 8 0b11111110 = some .startToken := by decide
/-- R104, R105: 0xFF and 0xFC are neither. -/
theorem test_decode_not_recognised : decodeTableWord 8 0b11111111 = none ∧ decodeTableWord 8 0b11111100 = none := by decide
/-- R100: encoding the generic packet puts every field in its place. -/
theorem test_encode_sd_cmd : encode (.sdCmd 17#6 0x12345678#32 0xAB#8) = .packet 0x5112345678AB#48 := by decide

/-! ### WellFormed refuses -/

theorem test_ill_formed_cmd0 : (Instr.sdCmd 0#6 0#32 0x95#8).wellFormed = false := by decide
theorem test_ill_formed_cmd8 : (Instr.sdCmd 8#6 0x1AA#32 0x87#8).wellFormed = false := by decide
theorem test_ill_formed_cmd55 : (Instr.sdCmd 55#6 0#32 0x65#8).wellFormed = false := by decide
theorem test_ill_formed_acmd41 : (Instr.sdCmd 41#6 0x40000000#32 0x77#8).wellFormed = false := by decide
theorem test_ill_formed_cmd56 : (Instr.sdCmd 56#6 1#32 0x37#8).wellFormed = false := by decide

/-! ### One step of each instruction (95_test_vectors.md) -/

/-- R200's example: STATUS 0x00030002 stays. -/
theorem test_nop_idle : run1 .nop responded = responded := by decide
/-- 2.6: WR CTRL, 0 while BUSY = 1 is F_ISSUE_BUSY. -/
theorem test_nop_busy : codes (run1 .nop (busyIn .clk 1 1)) = [3] := by decide

/-- R141: latches, BUSY, RESULT = NONE, COUNT = 0, no exchange. -/
theorem test_send_cmd_start :
    let t := run1 .sendCmd { loaded with status := responded.status }
    statusWord t.status.count t.status.result t.status.busy = 0x00000001#32 ∧ t.phase = .cmdPrime ∧
      packetBytes t.latch = [0x51#8, 0x12#8, 0x34#8, 0x56#8, 0x78#8, 0xAB#8] ∧ t.history = [] := by decide
/-- 2.6: WR CTRL, 1 while BUSY = 1. -/
theorem test_send_cmd_busy : codes (run1 .sendCmd (busyIn .tokHunt 4 4)) = [3] := by decide

/-- R171. -/
theorem test_read_block_start :
    let t := run1 .readBlock responded
    statusWord t.status.count t.status.result t.status.busy = 0x00000001#32 ∧ t.phase = .tokHunt ∧ t.respR1 = 0x01#8 := by
  decide
/-- 3.5: WR CTRL, 2 while BUSY = 1. -/
theorem test_read_block_busy : codes (run1 .readBlock (busyIn .cmdPrime 0 0)) = [3] := by decide

/-- R212. -/
theorem test_clock_start :
    let t := run1 .clock loaded
    t.phase = .clk ∧ t.status.busy = true ∧ t.latch.n = 4#16 ∧ t.latch.cs = true := by decide
/-- 2.5: CLKCNT = 0 gives STATUS 0x0000000A with no exchange. -/
theorem test_clock_zero :
    let t := run1 .clock State.reset
    statusWord t.status.count t.status.result t.status.busy = 0x0000000A#32 ∧ t.history = [] := by decide

/-- 2.1: CMD written 0x0000AB11, ARG 0x12345678. -/
theorem test_sd_cmd :
    let t := run1 (.sdCmd 17#6 0x12345678#32 0xAB#8) State.reset
    cmdWord t.regs = 0x0000AB11#32 ∧ t.regs.arg = 0x12345678#32 ∧ t.phase = .cmdPrime ∧ t.env.hostQ = [.wait] := by decide
/-- 2.1: 40 00 00 00 00 95. -/
theorem test_cmd0 :
    packetBytes (run1 .cmd0 loaded).latch = [0x40#8, 0x00#8, 0x00#8, 0x00#8, 0x00#8, 0x95#8] := by decide
/-- 2.1: 48 00 00 01 AA 87. -/
theorem test_cmd8 :
    packetBytes (run1 .cmd8 loaded).latch = [0x48#8, 0x00#8, 0x00#8, 0x01#8, 0xAA#8, 0x87#8] := by decide
/-- 2.1: 77 00 00 00 00 65. -/
theorem test_cmd55 :
    packetBytes (run1 .cmd55 loaded).latch = [0x77#8, 0x00#8, 0x00#8, 0x00#8, 0x00#8, 0x65#8] := by decide
/-- 2.1: 69 40 00 00 00 77. -/
theorem test_acmd41 :
    packetBytes (run1 .acmd41 loaded).latch = [0x69#8, 0x40#8, 0x00#8, 0x00#8, 0x00#8, 0x77#8] := by decide
/-- 3.3: CMD 0x00003738, 78 00 00 00 01 37. -/
theorem test_cmd56 :
    let t := run1 (.cmd56 0x00000001#32 0x37#8) loaded
    cmdWord t.regs = 0x00003738#32 ∧ packetBytes t.latch = [0x78#8, 0x00#8, 0x00#8, 0x00#8, 0x01#8, 0x37#8] := by decide
/-- 3.5's first line on a busy block: the operands land, the start does not. -/
theorem test_cmd0_busy :
    let t := run1 .cmd0 (busyIn .cmdPkt 3 0)
    codes t = [3] ∧ cmdWord t.regs = 0x00009500#32 ∧ t.latch.idx = 17#6 := by decide

/-- 2.2: 0x05 at poll 10 is a response, STATUS 0x000A0002. -/
theorem test_r1_at_poll_10 :
    let t := run1 (.r1 5#7) (busyIn .cmdPoll 9 9)
    statusWord t.status.count t.status.result t.status.busy = 0x000A0002#32 ∧ t.respR1 = 0x05#8 ∧ t.csN = true := by decide
/-- 2.2: 0x00 received with the packet is ignored. -/
theorem test_r1_in_packet :
    let t := run1 (.r1 0#7) (busyIn .cmdPkt 0 0)
    t.phase = .cmdPkt ∧ t.respW = false ∧ lastXchg t = some ⟨0x51#8, 0x00#8, true⟩ := by decide

/-- 2.3: the token at poll 1000 leads to the payload, COUNT = 1000. -/
theorem test_start_token_at_poll_1000 :
    let t := run1 .startToken (busyIn .tokHunt 999 999)
    t.phase = .payload ∧ t.j = 0#16 ∧ t.status.count = 1000#16 := by decide
/-- 2.4: a 0xFE in the payload is stored. -/
theorem test_start_token_in_payload :
    Memory.read (run1 .startToken (busyIn .payload 0 1)).data 0x200 = 0xFE#8 := by decide

/-! ### Host accesses (95_test_vectors.md 2.6, 2.7) -/

theorem test_read_status_after_reset : lastRead (after (placeHost (.read 0x00C 4) State.reset)) = some 0x00000000#32 := by
  decide
theorem test_read_status : lastRead (after (placeHost (.read 0x00C 4) responded)) = some 0x00030002#32 := by decide
theorem test_read_resp_unwritten : codes (after (placeHost (.read 0x010 4) State.reset)) = [5] := by decide
theorem test_read_data_unwritten : codes (after (placeHost (.read 0x200 1) State.reset)) = [5] := by decide
theorem test_read_resp_busy : codes (after (placeHost (.read 0x010 4) (busyIn .cmdPoll 0 0))) = [4] := by decide
theorem test_write_cmd :
    lastRead (after (placeHost (.read 0x004 4) (after (placeHost (.write 0x004 4 0x0000FF3F#32) State.reset)))) =
      some 0x0000FF3F#32 := by decide
theorem test_write_cmd_reserved :
    codes (after (placeHost (.write 0x004 4 0x00000040#32) State.reset)) = [2] ∧
      codes (after (placeHost (.write 0x004 4 0x00010000#32) State.reset)) = [2] := by decide
theorem test_write_clkcnt_reserved : codes (after (placeHost (.write 0x014 4 0x00020000#32) State.reset)) = [2] := by decide
/-- Priority, R238: F_RESERVED before F_ISSUE_BUSY. -/
theorem test_write_ctrl_reserved_busy : codes (after (placeHost (.write 0x000 4 0x00000005#32) (busyIn .clk 0 0))) = [2] := by
  decide
theorem test_bad_accesses :
    codes (after (placeHost (.read 0x002 4) filled)) = [1] ∧ codes (after (placeHost (.read 0x004 1) filled)) = [1] ∧
      codes (after (placeHost (.read 0x018 4) filled)) = [1] ∧ codes (after (placeHost (.read 0x201 2) filled)) = [1] ∧
      codes (after (placeHost (.write 0x00C 4 0#32) filled)) = [1] := by decide
/-- 2.4: RDW DATA+4 = 0x07060504, and MemRead(0x201, 1) = DATA[1]. -/
theorem test_read_data :
    lastRead (after (placeHost (.read 0x204 4) filled)) = some 0x07060504#32 ∧
      lastRead (after (placeHost (.read 0x201 1) filled)) = some 0x00000001#32 := by decide
/-- 2.7: a reset during READ_BLOCK ends it with no RESULT. -/
theorem test_reset_in_read_block :
    let t := after (placeHost .reset (busyIn .payload 100 3))
    statusWord t.status.count t.status.result t.status.busy = 0#32 ∧ t.phase = .idle ∧ t.csN = true ∧ t.dataW = false := by
  decide

/-! ### From reset, a placed word is what the next step runs -/

theorem test_place_ctrl : (after (State.reset.withFetchWord 32 2)).phase = .tokHunt := by decide
theorem test_place_packet : cmdWord (after (State.reset.withFetchWord 48 0x48000001AA87)).regs = 0x00008708#32 := by decide
/-- R263, R46: in IDLE the block has no step, and the byte stays on the bus. -/
theorem test_place_card :
    let t := after (State.reset.withFetchWord 8 0xFE)
    t.history = [] ∧ t.env.miso = [0xFE#8] := by decide

/-! ### Every statement's hypotheses are met: a state for each, at the ends of each range -/

/-- A running block whose next answer is `b`, in its own turn. -/
def facing (p : Phase) (j c : Nat) (b : Byte) : State := placeCard b (busyIn p j c)

/-- The block's turn in phase `p` at exchange `j`, with answer `b`. -/
def Faces (s : State) (p : Phase) (j : Nat) (b : Byte) : Prop :=
  turn s = .block ∧ s.phase = p ∧ s.j.toNat = j ∧ nextRx s = b

/-- A card that answers `m` times 0xFF. -/
def silent (m : Nat) : List Byte := List.replicate m 0xFF#8

theorem rx_silent {s : State} {m k : Nat} (h : k < m) : rxAt (answering s (silent m)) k = 0xFF#8 := by
  simp [rxAt, answering, silent, h]

theorem rx_then {s : State} {m k : Nat} {b : Byte} (h : k < m) : rxAt (answering s (silent m ++ [b])) k = 0xFF#8 := by
  simp [rxAt, answering, silent, List.getElem?_append, h]

theorem rx_last {s : State} {m : Nat} {b : Byte} : rxAt (answering s (silent m ++ [b])) m = b := by
  simp [rxAt, answering, silent]

theorem witness_DecodeOfEncodeIsTheInstruction :
    (Instr.sdCmd 17#6 0x12345678#32 0xAB#8).wellFormed = true ∧ (Instr.sdCmd 63#6 0xFFFFFFFF#32 0x00#8).wellFormed = true ∧
      (Instr.cmd56 0#32 0#8).wellFormed = true ∧ (Instr.r1 127#7).wellFormed = true := by decide

theorem witness_EncodeOfDecodeIsTheWord :
    decode (.ctrl 3#32) = .ok .clock ∧ decode (.packet 0x7FFFFFFFFF00#48) = .ok (.sdCmd 63#6 0xFFFFFFFF#32 0x00#8) ∧
      decode (.card 0x7F#8) = .ok (.r1 127#7) := ⟨rfl, rfl, rfl⟩

theorem witness_WindowOffsetIsRelativeToBase : 0 < 0x400 ∧ 0x3FF < 0x400 := by decide

theorem witness_StepRunsOperationWord :
    HostDoes (placeHost (.write 0x000 4 1#32) loaded) (.write 0x000 4 1#32) [] ∧ decode (.ctrl 1#32) = .ok .sendCmd :=
  ⟨⟨rfl, rfl⟩, rfl⟩

theorem witness_StepRunsCommandPacket :
    HostDoes (placeHost (.sendCmd 8#6 0x1AA#32 0x87#8) loaded) (.sendCmd 8#6 0x1AA#32 0x87#8) [] := ⟨rfl, rfl⟩

theorem witness_StepRunsCardByte :
    (let s := facing .cmdPoll 0 0 0x01#8; turn s = .block ∧ s.env.miso = [0x01#8] ∧ decode (.card 0x01#8) = .ok (.r1 1#7)) ∧
      (let s := facing .tokHunt 0 0 0xFE#8
       turn s = .block ∧ s.env.miso = [0xFE#8] ∧ decode (.card 0xFE#8) = .ok .startToken) :=
  ⟨⟨rfl, rfl, rfl⟩, ⟨rfl, rfl, rfl⟩⟩

theorem witness_FreeCardByteActsAsScripted :
    let s := busyIn .cmdPoll 0 0
    s.phase ≠ .idle ∧ turn s = .block ∧ s.env.miso = [] := by decide

theorem witness_NopDoesNothing : responded.status.busy = false ∧ (busyIn .clk 0 0).status.busy = true := by decide

theorem witness_OperationsStart : loaded.status.busy = false ∧ loaded.regs.clkN ≠ 0#16 := by decide

theorem witness_ClockOfNoBytesCompletesAtOnce : State.reset.status.busy = false ∧ State.reset.regs.clkN = 0#16 := by decide

/-- One for each outcome: a bad width, reserved bits, BUSY, and the four operations. -/
theorem witness_CtrlWriteIsCheckedInOrder :
    HostDoes (placeHost (.write 0x000 1 0#32) loaded) (.write 0x000 1 0#32) [] ∧
    HostDoes (placeHost (.write 0x000 4 4#32) loaded) (.write 0x000 4 4#32) [] ∧
    (HostDoes (placeHost (.write 0x000 4 3#32) (busyIn .clk 0 0)) (.write 0x000 4 3#32) [] ∧
      (placeHost (.write 0x000 4 3#32) (busyIn .clk 0 0)).status.busy = true) ∧
    HostDoes (placeHost (.write 0x000 4 0#32) loaded) (.write 0x000 4 0#32) [] ∧
    HostDoes (placeHost (.write 0x000 4 1#32) loaded) (.write 0x000 4 1#32) [] ∧
    HostDoes (placeHost (.write 0x000 4 2#32) loaded) (.write 0x000 4 2#32) [] ∧
    HostDoes (placeHost (.write 0x000 4 3#32) loaded) (.write 0x000 4 3#32) [] :=
  ⟨⟨rfl, rfl⟩, ⟨rfl, rfl⟩, ⟨⟨rfl, rfl⟩, rfl⟩, ⟨rfl, rfl⟩, ⟨rfl, rfl⟩, ⟨rfl, rfl⟩, ⟨rfl, rfl⟩⟩

theorem witness_CommandPacketStartsSendCmd : loaded.status.busy = false := by decide

theorem witness_CommandPacketWhileBusy : (busyIn .cmdPkt 3 0).status.busy = true := by decide

theorem witness_SendCmdTransactionIsItsExpansion :
    let s : State := { loaded with env := { loaded.env with hostQ := [.sendCmd 0#6 0#32 0x95#8] } }
    s.phase = .idle ∧ s.status.busy = false ∧ s.env.sched = [] ∧ s.env.hostQ = [.sendCmd 0#6 0#32 0x95#8] := by decide

theorem witness_PrimingByteIsSentFirst : Faces (facing .cmdPrime 0 0 0x00#8) .cmdPrime 0 0x00#8 := ⟨rfl, rfl, rfl, rfl⟩

theorem witness_PacketByteIsSent :
    Faces (facing .cmdPkt 0 0 0xFF#8) .cmdPkt 0 0xFF#8 ∧ Faces (facing .cmdPkt 4 0 0xFF#8) .cmdPkt 4 0xFF#8 ∧
      Faces (facing .cmdPkt 5 0 0x00#8) .cmdPkt 5 0x00#8 :=
  ⟨⟨rfl, rfl, rfl, rfl⟩, ⟨rfl, rfl, rfl, rfl⟩, ⟨rfl, rfl, rfl, rfl⟩⟩

/-- Poll 1 and poll 10, each with and without a response, and poll 9. -/
theorem witness_PollTakesTheFirstValidByte :
    Faces (facing .cmdPoll 0 0 0x7F#8) .cmdPoll 0 0x7F#8 ∧ Faces (facing .cmdPoll 0 0 0x80#8) .cmdPoll 0 0x80#8 ∧
      Faces (facing .cmdPoll 8 8 0xFF#8) .cmdPoll 8 0xFF#8 ∧
      Faces (facing .cmdPoll 9 9 0x05#8) .cmdPoll 9 0x05#8 ∧ Faces (facing .cmdPoll 9 9 0xFF#8) .cmdPoll 9 0xFF#8 :=
  ⟨⟨rfl, rfl, rfl, rfl⟩, ⟨rfl, rfl, rfl, rfl⟩, ⟨rfl, rfl, rfl, rfl⟩, ⟨rfl, rfl, rfl, rfl⟩, ⟨rfl, rfl, rfl, rfl⟩⟩

/-- The response at poll `n`, for every `n` from 1 to 10: 0xFF before it, then 0x00. -/
theorem witness_SendCmdReportsTheFirstValidPoll (n : Nat) (_h1 : 1 ≤ n) (_h10 : n ≤ 10) :
    let s := answering loaded (silent (6 + n) ++ [0x00#8])
    s.status.busy = false ∧ s.env.sched = [] ∧ (∃ t, exec .sendCmd s = .next t) ∧
      (∀ m, 1 ≤ m → m < n → (rxAt s (6 + m)).getLsbD 7 = true) ∧ (rxAt s (6 + n)).getLsbD 7 = false := by
  refine ⟨rfl, rfl, ⟨_, rfl⟩, fun m _ hm => ?_, ?_⟩
  · rw [rx_then (by omega)]
    decide
  · rw [rx_last]
    decide

theorem witness_SendCmdWithoutResponse :
    let s := answering loaded (silent 17)
    s.status.busy = false ∧ s.env.sched = [] ∧ (∃ t, exec .sendCmd s = .next t) ∧
      ∀ m, 1 ≤ m → m ≤ 10 → (rxAt s (6 + m)).getLsbD 7 = true := by
  refine ⟨rfl, rfl, ⟨_, rfl⟩, fun m _ hm => ?_⟩
  rw [rx_silent (by omega)]
  decide

/-- Hunt polls 1, 999 and 1000, the token and not. -/
theorem witness_HuntEndsAtTheToken :
    loaded.status.busy = false ∧ Faces (facing .tokHunt 0 0 0xFE#8) .tokHunt 0 0xFE#8 ∧
      Faces (facing .tokHunt 998 998 0xFC#8) .tokHunt 998 0xFC#8 ∧
      Faces (facing .tokHunt 999 999 0xFE#8) .tokHunt 999 0xFE#8 ∧
      Faces (facing .tokHunt 999 999 0x05#8) .tokHunt 999 0x05#8 :=
  ⟨rfl, ⟨rfl, rfl, rfl, rfl⟩, ⟨rfl, rfl, rfl, rfl⟩, ⟨rfl, rfl, rfl, rfl⟩, ⟨rfl, rfl, rfl, rfl⟩⟩

theorem witness_PayloadByteIsStored :
    Faces (facing .payload 0 1 0xFE#8) .payload 0 0xFE#8 ∧ Faces (facing .payload 511 1 0x00#8) .payload 511 0x00#8 ∧
      Memory.wf (facing .payload 511 1 0x00#8).data = true :=
  ⟨⟨rfl, rfl, rfl, rfl⟩, ⟨rfl, rfl, rfl, rfl⟩, rfl⟩

theorem witness_TrailerIsDiscarded :
    Faces (facing .payload 512 1 0x12#8) .payload 512 0x12#8 ∧ Faces (facing .payload 513 1 0x34#8) .payload 513 0x34#8 ∧
      (facing .payload 512 1 0x12#8).j = 512#16 ∧ (facing .payload 513 1 0x34#8).j = 513#16 :=
  ⟨⟨rfl, rfl, rfl, rfl⟩, ⟨rfl, rfl, rfl, rfl⟩, rfl, rfl⟩

/-- The token at poll `n`, for every `n` from 1 to 1000. -/
theorem witness_ReadBlockStoresThePayload (n : Nat) (h1 : 1 ≤ n) (_h : n ≤ 1000) :
    let s := answering loaded (silent (n - 1) ++ [0xFE#8])
    s.status.busy = false ∧ s.env.sched = [] ∧ Memory.wf s.data = true ∧ (∃ t, exec .readBlock s = .next t) ∧
      (∀ m, 1 ≤ m → m < n → rxAt s (m - 1) ≠ 0xFE#8) ∧ rxAt s (n - 1) = 0xFE#8 := by
  refine ⟨rfl, rfl, rfl, ⟨_, rfl⟩, fun m _ hm => ?_, rx_last⟩
  rw [rx_then (by omega)]
  decide

theorem witness_ReadBlockWithoutToken :
    let s := answering loaded (silent 1000)
    s.status.busy = false ∧ s.env.sched = [] ∧ (∃ t, exec .readBlock s = .next t) ∧ ∀ m, m < 1000 → rxAt s m ≠ 0xFE#8 := by
  refine ⟨rfl, rfl, ⟨_, rfl⟩, fun m hm => ?_⟩
  rw [rx_silent hm]
  decide

/-- L_N = 4: the first, the third and the last byte. -/
theorem witness_ClockByteIsSent :
    Faces (facing .clk 0 0 0xFF#8) .clk 0 0xFF#8 ∧ Faces (facing .clk 2 2 0x00#8) .clk 2 0x00#8 ∧
      Faces (facing .clk 3 3 0xFE#8) .clk 3 0xFE#8 ∧ (facing .clk 3 3 0xFE#8).latch.n.toNat = 4 :=
  ⟨⟨rfl, rfl, rfl, rfl⟩, ⟨rfl, rfl, rfl, rfl⟩, ⟨rfl, rfl, rfl, rfl⟩, rfl⟩

/-- N = 4, and N = 0. -/
theorem witness_ClockSendsExactlyN :
    (loaded.status.busy = false ∧ loaded.env.sched = [] ∧ loaded.regs.clkN = 4#16 ∧ ∃ t, exec .clock loaded = .next t) ∧
      (State.reset.status.busy = false ∧ State.reset.env.sched = [] ∧ State.reset.regs.clkN = 0#16 ∧
        ∃ t, exec .clock State.reset = .next t) :=
  ⟨⟨rfl, rfl, rfl, ⟨_, rfl⟩⟩, ⟨rfl, rfl, rfl, ⟨_, rfl⟩⟩⟩

/-- Each kind of completion, and the block's turn in IDLE. -/
theorem witness_CompletionLeavesTheCounter :
    ∀ s ∈ [facing .cmdPoll 0 0 0x00#8, facing .cmdPoll 9 9 0xFF#8, facing .tokHunt 999 999 0x05#8, facing .payload 513 1 0x34#8,
      facing .clk 3 3 0xFF#8, placeCard 0x00#8 loaded],
      turn s = .block ∧ (after s).phase = .idle ∧ (after s).j = s.j := by decide

theorem witness_R1ByteCompletesSendCmd : (busyIn .cmdPoll 0 0).phase = .cmdPoll := by decide

theorem witness_StartTokenEndsTheHunt : (busyIn .tokHunt 0 0).phase = .tokHunt := by decide

/-- One state for each clause: IDLE, a phase that stores nothing, and the first and last byte of the payload. -/
theorem witness_CardByteFrame :
    (∃ st : BitVec 7, Instr.r1 5#7 = .r1 st ∧ 0x05#8 = 0#1 ++ st) ∧
    ((∃ t, exec (.r1 5#7) loaded = .next t) ∧ loaded.phase = .idle) ∧
    ((∃ t, exec .startToken (busyIn .clk 0 0) = .next t) ∧ (busyIn .clk 0 0).phase ≠ .idle) ∧
    ((∃ t, exec .startToken (busyIn .payload 0 1) = .next t) ∧ (busyIn .payload 0 1).phase = .payload ∧
      Memory.wf (busyIn .payload 0 1).data = true ∧ (0x201 ≠ 0x200 + (busyIn .payload 0 1).j.toNat)) ∧
    ((∃ t, exec (.r1 5#7) (busyIn .payload 513 1) = .next t) ∧ 512 ≤ (busyIn .payload 513 1).j.toNat) :=
  ⟨⟨5#7, rfl, rfl⟩, ⟨⟨_, rfl⟩, rfl⟩, ⟨⟨_, rfl⟩, by decide⟩, ⟨⟨_, rfl⟩, rfl, rfl, by decide⟩, ⟨⟨_, rfl⟩, by decide⟩⟩

theorem witness_RegisterReadsReturnTheFields :
    HostDoes (placeHost (.read 0x000 4) loaded) (.read 0x000 4) [] ∧
    HostDoes (placeHost (.read 0x004 4) loaded) (.read 0x004 4) [] ∧
    HostDoes (placeHost (.read 0x008 4) (busyIn .clk 0 0)) (.read 0x008 4) [] ∧
    HostDoes (placeHost (.read 0x014 4) loaded) (.read 0x014 4) [] :=
  ⟨⟨rfl, rfl⟩, ⟨rfl, rfl⟩, ⟨rfl, rfl⟩, ⟨rfl, rfl⟩⟩

theorem witness_StatusReadShowsTheFields :
    (let s := placeHost (.read 0x00C 4) responded
     HostDoes s (.read 0x00C 4) [] ∧ s.busyOk = true ∧ s.status.busy = false) ∧
    (let s := placeHost (.read 0x00C 4) (busyIn .clk 2 2)
     HostDoes s (.read 0x00C 4) [] ∧ s.busyOk = true ∧ s.status.busy = true) :=
  ⟨⟨⟨rfl, rfl⟩, rfl, rfl⟩, ⟨⟨rfl, rfl⟩, rfl, rfl⟩⟩

theorem witness_RespRead :
    (let s := placeHost (.read 0x010 4) (busyIn .cmdPoll 3 3); HostDoes s (.read 0x010 4) [] ∧ s.status.busy = true) ∧
    (let s := placeHost (.read 0x010 4) loaded
     HostDoes s (.read 0x010 4) [] ∧ s.status.busy = false ∧ s.respW = false) ∧
    (let s := placeHost (.read 0x010 4) responded
     HostDoes s (.read 0x010 4) [] ∧ s.status.busy = false ∧ s.respW = true) :=
  ⟨⟨⟨rfl, rfl⟩, rfl⟩, ⟨⟨rfl, rfl⟩, rfl, rfl⟩, ⟨⟨rfl, rfl⟩, rfl, rfl⟩⟩

/-- Width 1 at the last offset, width 2 and 4 at the last aligned ones; busy, unwritten, written. -/
theorem witness_DataRead :
    (let s := placeHost (.read (0x200 + 511) 1) (busyIn .payload 9 1)
     HostDoes s (.read (0x200 + 511) 1) [] ∧ 511 % 1 = 0 ∧ s.status.busy = true) ∧
    (let s := placeHost (.read (0x200 + 510) 2) loaded
     HostDoes s (.read (0x200 + 510) 2) [] ∧ 510 % 2 = 0 ∧ s.status.busy = false ∧ s.dataW = false) ∧
    (let s := placeHost (.read (0x200 + 508) 4) filled
     HostDoes s (.read (0x200 + 508) 4) [] ∧ 508 % 4 = 0 ∧ s.status.busy = false ∧ s.dataW = true) ∧
    (let s := placeHost (.read (0x200 + 0) 4) filled; HostDoes s (.read (0x200 + 0) 4) [] ∧ 0 % 4 = 0 ∧ s.dataW = true) :=
  ⟨⟨⟨rfl, rfl⟩, rfl, rfl⟩, ⟨⟨rfl, rfl⟩, rfl, rfl, rfl⟩, ⟨⟨rfl, rfl⟩, rfl, rfl, rfl⟩, ⟨⟨rfl, rfl⟩, rfl, rfl⟩⟩

/-- The first unmapped offset, a register's narrow width, a misaligned DATA read, and past the window; a write to DATA. -/
theorem witness_BadAccessIsRefused :
    (¬ (4 = 4 ∧ 0x018 % 4 = 0 ∧ 0x018 ≤ 0x014) ∧ HostDoes (placeHost (.read 0x018 4) loaded) (.read 0x018 4) []) ∧
    (¬ (1 = 4 ∧ 0x010 % 4 = 0 ∧ 0x010 ≤ 0x014) ∧ HostDoes (placeHost (.read 0x010 1) loaded) (.read 0x010 1) []) ∧
    (¬ ((2 = 1 ∨ 2 = 2 ∨ 2 = 4) ∧ 0x201 % 2 = 0 ∧ 0x200 ≤ 0x201 ∧ 0x201 ≤ 0x3FF) ∧
      HostDoes (placeHost (.read 0x201 2) loaded) (.read 0x201 2) []) ∧
    (¬ (4 = 4 ∧ 0x400 % 4 = 0 ∧ 0x400 ≤ 0x014) ∧ HostDoes (placeHost (.read 0x400 4) loaded) (.read 0x400 4) []) ∧
    (¬ (4 = 4 ∧ 0x200 % 4 = 0 ∧ 0x200 ≤ 0x014) ∧
      HostDoes (placeHost (.write 0x200 4 1#32) loaded) (.write 0x200 4 1#32) []) :=
  ⟨⟨by decide, rfl, rfl⟩, ⟨by decide, rfl, rfl⟩, ⟨by decide, rfl, rfl⟩, ⟨by decide, rfl, rfl⟩, ⟨by decide, rfl, rfl⟩⟩

theorem witness_ReadOnlyWritesAreRefused :
    HostDoes (placeHost (.write 0x00C 4 1#32) loaded) (.write 0x00C 4 1#32) [] ∧
    HostDoes (placeHost (.write 0x010 4 1#32) loaded) (.write 0x010 4 1#32) [] ∧
    HostDoes (placeHost (.write 0x018 4 1#32) loaded) (.write 0x018 4 1#32) [] ∧
    HostDoes (placeHost (.write 0x3FF 1 1#32) loaded) (.write 0x3FF 1 1#32) [] :=
  ⟨⟨rfl, rfl⟩, ⟨rfl, rfl⟩, ⟨rfl, rfl⟩, ⟨rfl, rfl⟩⟩

/-- CMD and CLKCNT with reserved bits 0 and not, ARG while BUSY = 1. -/
theorem witness_RegisterWritesSetTheFields :
    (HostDoes (placeHost (.write 0x004 4 0xFF3F#32) loaded) (.write 0x004 4 0xFF3F#32) [] ∧
      ¬ ((0xFF3F#32).extractLsb' 6 2 ≠ 0#2 ∨ (0xFF3F#32).extractLsb' 16 16 ≠ 0#16)) ∧
    (HostDoes (placeHost (.write 0x004 4 0x40#32) loaded) (.write 0x004 4 0x40#32) [] ∧
      (0x40#32).extractLsb' 6 2 ≠ 0#2) ∧
    HostDoes (placeHost (.write 0x008 4 0xFFFFFFFF#32) (busyIn .clk 0 0)) (.write 0x008 4 0xFFFFFFFF#32) [] ∧
    (HostDoes (placeHost (.write 0x014 4 0x1FFFF#32) loaded) (.write 0x014 4 0x1FFFF#32) [] ∧
      (0x1FFFF#32).extractLsb' 17 15 = 0#15) ∧
    (HostDoes (placeHost (.write 0x014 4 0x20000#32) loaded) (.write 0x014 4 0x20000#32) [] ∧
      (0x20000#32).extractLsb' 17 15 ≠ 0#15) :=
  ⟨⟨⟨rfl, rfl⟩, by decide⟩, ⟨⟨rfl, rfl⟩, by decide⟩, ⟨rfl, rfl⟩, ⟨⟨rfl, rfl⟩, by decide⟩, ⟨⟨rfl, rfl⟩, by decide⟩⟩

theorem witness_WaitEndsWhenNotBusy :
    (let s := placeHost .wait (busyIn .clk 0 0); HostDoes s .wait [] ∧ s.status.busy = true) ∧
    (let s := placeHost .wait loaded; HostDoes s .wait [] ∧ s.status.busy = false) :=
  ⟨⟨⟨rfl, rfl⟩, rfl⟩, ⟨⟨rfl, rfl⟩, rfl⟩⟩

theorem witness_ResetLeavesTheSpecifiedValues :
    HostDoes (placeHost .reset (busyIn .payload 100 3)) .reset [] ∧
      step (placeHost .reset (busyIn .payload 100 3)) = .next (after (placeHost .reset (busyIn .payload 100 3))) :=
  ⟨⟨rfl, rfl⟩, rfl⟩

theorem witness_ResetInputAbortsTheOperation : HostDoes (placeHost .reset (busyIn .cmdPoll 9 9)) .reset [] := ⟨rfl, rfl⟩

/-- The invariant holds in idle and in running states, and each has a next state. -/
theorem witness_EveryStepKeepsTheInvariant :
    filled.inv = true ∧ (busyIn .cmdPoll 9 9).inv = true ∧ (facing .payload 513 1 0#8).inv = true ∧
      step (facing .payload 513 1 0#8) = .next (after (facing .payload 513 1 0#8)) := ⟨rfl, rfl, rfl, rfl⟩

/-- The host's turn; the block's in IDLE; the block's in CLOCK and elsewhere. -/
theorem witness_OneExchangePerBlockStep :
    (let s := placeHost .wait loaded; step s = .next (after s) ∧ turn s = .host ∧ s.env.hostQ.head? ≠ some .reset) ∧
    (let s := placeCard 0x00#8 loaded; step s = .next (after s) ∧ turn s = .block ∧ s.phase = .idle) ∧
    (let s := facing .clk 0 0 0x00#8; step s = .next (after s) ∧ turn s = .block ∧ s.phase = .clk) ∧
    (let s := facing .cmdPkt 5 0 0x00#8; step s = .next (after s) ∧ turn s = .block ∧ s.phase ≠ .idle) :=
  ⟨⟨rfl, rfl, by decide⟩, ⟨rfl, rfl, rfl⟩, ⟨rfl, rfl, rfl⟩, ⟨rfl, rfl, by decide⟩⟩

theorem witness_FaultsStayUntilReset :
    let s := placeHost (.read 0x018 4) loaded
    step s = .next (after s) ∧ (after s).faults = s.faults ++ [⟨.access, 0x018, none⟩] := ⟨rfl, rfl⟩

/-- 95_test_vectors.md 3.5: the second CTRL write leaves a recorded fault, and no reset is pending. -/
theorem witness_FaultedRunNeverEnds :
    let s := after (placeHost (.write 0x000 4 2#32) (answering (busyIn .cmdPrime 0 0) [0xFF#8]))
    s.noFault = false ∧ HostAct.reset ∉ s.env.hostQ ∧ Reaches s s ∧ Reaches s (after s) :=
  ⟨rfl, by decide, ⟨0, rfl⟩, ⟨1, rfl⟩⟩

/-- A run ends: from reset, `NOP` leads to a final state, as does a state with a byte left on the bus. -/
theorem witness_FinalStatesStay :
    (let s := placeHost (.write 0x000 4 0#32) State.reset; s.final = false ∧ EndsIn s (after s)) ∧
    (let s := answering responded [0x00#8]; s.final = true ∧ Reaches s (after s)) :=
  ⟨⟨rfl, ⟨1, rfl⟩, rfl⟩, ⟨rfl, ⟨1, rfl⟩⟩⟩

/-- R235: quiet, but a fault is recorded, so it is not final. -/
theorem test_faulted_not_final :
    let s := after (placeHost (.read 0x018 4) State.reset)
    s.quiet = true ∧ s.noFault = false ∧ s.final = false := by decide

theorem witness_OnlyTheirPhasesWriteDataAndResp :
    (let s := facing .payload 0 1 0x44#8; step s = .next (after s) ∧ (after s).data ≠ s.data) ∧
    (let s := facing .cmdPoll 0 0 0x44#8; step s = .next (after s) ∧ (after s).respR1 ≠ s.respR1) :=
  ⟨⟨rfl, by decide⟩, ⟨rfl, by decide⟩⟩

theorem witness_LatchesAreFixedWhileBusy :
    (let s := placeHost (.write 0x000 4 1#32) (busyIn .clk 1 1); step s = .next (after s) ∧ s.status.busy = true) ∧
    (let s := placeCard 0x00#8 loaded; step s = .next (after s) ∧ turn s = .block) :=
  ⟨⟨rfl, rfl⟩, ⟨rfl, rfl⟩⟩

theorem witness_RunningOperationIgnoresRegisterWrites :
    ({ (busyIn .cmdPkt 0 0) with env := { State.reset.env with sched := List.replicate 3 .block } } : State).env.sched =
      List.replicate 3 .block := rfl

theorem witness_FinalCountIsKeptToTheEnd :
    (let s := facing .cmdPoll 9 9 0xFF#8; s.inv = true ∧ turn s = .block ∧ step s = .next (after s)) ∧
    (let s := facing .clk 3 3 0x00#8
     s.inv = true ∧ turn s = .block ∧ step s = .next (after s) ∧ (after s).phase = .idle ∧ finalCount s = 4) :=
  ⟨⟨rfl, rfl, rfl⟩, ⟨rfl, rfl, rfl, rfl, rfl⟩⟩

/-- A running state of each phase, at the phase's first exchange. -/
theorem witness_RunningOperationEndsWithinItsBound :
    ∀ s ∈ [busyIn .cmdPrime 0 0, busyIn .cmdPkt 0 0, busyIn .cmdPoll 0 0, busyIn .tokHunt 0 0, busyIn .payload 0 1,
      busyIn .clk 0 0], s.inv = true ∧ s.env.sched = [] ∧ s.status.busy = true := by decide

theorem witness_ReadsAreIdempotent :
    (let s := placeHost (.read 0x204 4) (placeHost (.read 0x204 4) filled)
     HostDoes s (.read 0x204 4) [.read 0x204 4] ∧ readFault 0x204 4 s = none ∧ step s = .next (after s) ∧
       turn (after s) = .host ∧ step (after s) = .next (after (after s))) ∧
    (let s := placeHost (.read 0x00C 4) (placeHost (.read 0x00C 4) responded)
     HostDoes s (.read 0x00C 4) [.read 0x00C 4] ∧ readFault 0x00C 4 s = none ∧ s.status.busy = false ∧
       step s = .next (after s) ∧ turn (after s) = .host) :=
  ⟨⟨⟨rfl, rfl⟩, rfl, rfl, rfl, rfl⟩, ⟨⟨rfl, rfl⟩, rfl, rfl, rfl, rfl⟩⟩

end Sys2Proof.Tests
end

section
/-! The card's free draw (log 2): the machine cannot tell it from a scripted byte. -/

namespace Sys2Proof.Machine

/-- `s` with the free draw written into the card's script as its one byte, and the draw counted. -/
def scriptDraw (s : State) : State :=
  { s with env := { s.env with
    miso := [Config.cardByte s.env.cardDraws], cardDraws := s.env.cardDraws + 1 } }

theorem nextRx_free {s : State} (h : s.env.miso = []) : nextRx s = Config.cardByte s.env.cardDraws := by
  unfold nextRx
  rw [h]

/-- With no script, exchanging a byte only counts the draw. -/
theorem dropRx_free {s : State} (h : s.env.miso = []) :
    dropRx s = { s with env := { s.env with miso := [], cardDraws := s.env.cardDraws + 1 } } := by
  simp only [dropRx, h]

theorem nextRx_scriptDraw {s : State} (h : s.env.miso = []) : nextRx (scriptDraw s) = nextRx s := by
  rw [nextRx_free h]
  rfl

/-- Exchanging the scripted draw leaves what exchanging the free one leaves. -/
theorem dropRx_scriptDraw {s : State} (h : s.env.miso = []) : dropRx (scriptDraw s) = dropRx s := by
  rw [dropRx_free h]
  rfl

theorem turn_scriptDraw (s : State) : turn (scriptDraw s) = turn s := rfl

theorem popSched_scriptDraw (s : State) : popSched (scriptDraw s) = scriptDraw (popSched s) := rfl

/-- Settles O9: both steps are the exchange of the phase, with the same byte received and the same state left
(00_scope.md R12, 20_memory.md R75). -/
theorem freeCardByteActsAsScripted : Obligations.FreeCardByteActsAsScripted := by
  intro s hp ht hm
  change step s = step (scriptDraw s)
  have ht' : turn (scriptDraw s) = .block := (turn_scriptDraw s).trans ht
  have hm' : (popSched s).env.miso = [] := hm
  rw [step_block ht hp, step_block ht' hp, nextRx_scriptDraw hm, popSched_scriptDraw, dropRx_scriptDraw hm']

end Sys2Proof.Machine
end

section
/-! What a turn can do, said once for the host and once for the block, with its guards. The statements of the state's family
(10_state.md) below are read off these two. -/

namespace Sys2Proof.Machine

/-! ### The host's turn -/

/-- What a host's turn can leave of `s`: an access that touches only the host's registers and environment and records at most
one model fault, a start while BUSY = 0, or the reset input (20_memory.md R79 to R85, 42_bus_clock_and_access.md R204). -/
inductive HostMove (s : State) : State → Prop where
  | access (r : HostRegs) (f : List FaultRecord) (e : Env) (hf : f = s.faults ∨ ∃ x, f = s.faults ++ [x]) :
      HostMove s { s with regs := r, faults := f, env := e }
  | sendCmd (hb : s.status.busy = false) (r : HostRegs) (e : Env) :
      HostMove s (startSendCmd { s with regs := r, env := e })
  | readBlock (hb : s.status.busy = false) (r : HostRegs) (e : Env) :
      HostMove s (startReadBlock { s with regs := r, env := e })
  | clock (hb : s.status.busy = false) (r : HostRegs) (e : Env) :
      HostMove s (startClock { s with regs := r, env := e })
  | reset (hq : s.env.hostQ.head? = some .reset) (e : Env) : HostMove s { State.reset with env := e }

theorem HostMove.quiet (s : State) (r : HostRegs) (e : Env) : HostMove s { s with regs := r, env := e } :=
  .access r s.faults e (.inl rfl)

theorem HostMove.faulted (s : State) (r : HostRegs) (e : Env) (x : FaultRecord) :
    HostMove s { s with regs := r, faults := s.faults ++ [x], env := e } :=
  .access r _ e (.inr ⟨x, rfl⟩)

theorem HostMove.issue {s : State} {w : Word} {start : State → State} (r : HostRegs) (e : Env)
    (hstart : s.status.busy = false → HostMove s (start { s with regs := r, env := e })) :
    HostMove s (issue w start { s with regs := r, env := e }) := by
  cases hb : s.status.busy with
  | false => rw [issue_idle (s := { s with regs := r, env := e }) hb]; exact hstart hb
  | true => rw [issue_busy (s := { s with regs := r, env := e }) hb]; exact .faulted s r e _

/-- The WAIT that a packet transaction leaves for the host may as well be there before the issue. -/
theorem pushWait_issue_sendCmd (w : Word) (s : State) :
    pushWait (issue w startSendCmd s) = issue w startSendCmd (pushWait s) := by
  unfold issue
  rw [apply_ite pushWait]
  rfl

theorem HostMove.framePacket (s : State) (e : Env) (index : BitVec 6) (arg : BitVec 32) (crc : BitVec 8) :
    HostMove s (framePacket index arg crc { s with env := e }) := by
  unfold Machine.framePacket
  rw [pushWait_issue_sendCmd]
  exact .issue _ _ (.sendCmd · _ _)

/-- Every packet row means the transaction of its operands (30_encoding.md R115, R118; log 8, log 10). -/
theorem exec_packetInstr (index : BitVec 6) (arg : BitVec 32) (crc : BitVec 8) (s : State) :
    exec (packetInstr index arg crc) s = .next (framePacket index arg crc s) := by
  unfold packetInstr
  split_ifs with h0 h8 h55 h41 h56
  · obtain ⟨rfl, rfl, rfl⟩ := h0; rfl
  · obtain ⟨rfl, rfl, rfl⟩ := h8; rfl
  · obtain ⟨rfl, rfl, rfl⟩ := h55; rfl
  · obtain ⟨rfl, rfl, rfl⟩ := h41; rfl
  · subst h56; rfl
  · rfl

/-- The operation words are the four operations (30_encoding.md R110). -/
theorem decode_ctrl_cases {w : Word} {i : Instr} (h : decode (.ctrl w) = .ok i) :
    i = .nop ∨ i = .sendCmd ∨ i = .readBlock ∨ i = .clock := by
  simp only [decode, decodeCtrl] at h
  split at h
  · cases h
  · split at h <;> cases h <;> simp

theorem exec_ctrl_hostMove {s t : State} {e : Env} {w : Word} {i : Instr} (hd : decode (.ctrl w) = .ok i)
    (h : exec i { s with env := e } = .next t) : HostMove s t := by
  obtain rfl | rfl | rfl | rfl := decode_ctrl_cases hd <;> cases h
  · exact .issue _ _ fun _ => .quiet s _ _
  · exact .issue _ _ (.sendCmd · _ _)
  · exact .issue _ _ (.readBlock · _ _)
  · exact .issue _ _ (.clock · _ _)

theorem memRead_hostMove (off n : Nat) (s : State) (e : Env) : HostMove s (memRead off n { s with env := e }) := by
  obtain ⟨f, _, hm⟩ | ⟨_, hm⟩ := memRead_cases off n { s with env := e }
  · rw [hm]; exact .faulted s _ _ _
  · rw [hm]; exact .quiet s _ _

theorem step_host_run {s u : State} {i : Instr} (ht : turn s = .host) (hf : fetchHost (popSched s) = .run i u) :
    step s = exec i u := by
  simp only [step, fetch, ht, hf]

theorem step_host_moved {s u : State} (ht : turn s = .host) (hf : fetchHost (popSched s) = .moved u) :
    step s = .next u := by
  simp only [step, fetch, ht, hf]

theorem fetchHost_hostMove {s u : State} (hf : fetchHost (popSched s) = .moved u) : HostMove s u := by
  obtain ⟨_, h⟩ | ⟨_, _, _, _, h⟩ | ⟨_, _, _, _, _, _, h⟩ | ⟨_, h⟩ | ⟨_, _, _, _, _, h⟩ | ⟨_, _, _, _, _, h⟩ |
    ⟨_, _, h⟩ | ⟨_, hq, h⟩ := fetchHost_cases (popSched s) <;> cases hf.symm.trans h
  · exact .quiet s _ _
  · exact memRead_hostMove _ _ s _
  · exact .faulted s _ _ _
  · exact .quiet s _ _
  · split <;> exact .quiet s _ _
  · exact HostMove.reset (s := s) (congrArg List.head? hq) _

theorem fetchHost_run_cases {s u : State} {i : Instr} (hf : fetchHost (popSched s) = .run i u) :
    u = popHost (popSched s) ∧
      ((∃ w, decode (.ctrl w) = .ok i) ∨ ∃ index arg crc, i = packetInstr index arg crc) := by
  obtain ⟨_, h⟩ | ⟨_, _, _, _, h⟩ | ⟨_, _, _, _, _, _, h⟩ | ⟨_, h⟩ | ⟨w, _, _, _, hd, h⟩ | ⟨_, _, _, _, _, h⟩ |
    ⟨_, _, h⟩ | ⟨_, _, h⟩ := fetchHost_cases (popSched s) <;> cases hf.symm.trans h
  · exact ⟨rfl, .inl ⟨w, hd⟩⟩
  · exact ⟨rfl, .inr ⟨_, _, _, rfl⟩⟩

theorem step_hostMove {s t : State} (ht : turn s = .host) (h : step s = .next t) : HostMove s t := by
  cases hf : fetchHost (popSched s) with
  | moved u =>
    rw [step_host_moved ht hf] at h
    cases h
    exact fetchHost_hostMove hf
  | run i u =>
    rw [step_host_run ht hf] at h
    obtain ⟨rfl, ⟨w, hd⟩ | ⟨index, arg, crc, rfl⟩⟩ := fetchHost_run_cases hf
    · exact exec_ctrl_hostMove hd h
    · cases (exec_packetInstr index arg crc _).symm.trans h
      exact .framePacket s _ _ _ _

/-! ### The block's turn -/

/-- What one exchange with received byte `rx` can leave of `s`: one constructor for each way out of each phase (10_state.md
R46). -/
inductive BlockMove (rx : Byte) (s : State) : State → Prop where
  | prime (hp : s.phase = .cmdPrime) : BlockMove rx s (enter .cmdPkt (xchg Config.primeTx true rx s))
  | packet (hp : s.phase = .cmdPkt) (hj : s.j.toNat + 1 < 6) :
      BlockMove rx s (advance (xchg (pktByte s.latch s.j.toNat) true rx s))
  | packetEnd (hp : s.phase = .cmdPkt) (hj : ¬ s.j.toNat + 1 < 6) :
      BlockMove rx s (enter .cmdPoll (xchg (pktByte s.latch s.j.toNat) true rx s))
  | response (hp : s.phase = .cmdPoll) (hv : r1Valid rx = true) :
      BlockMove rx s (finishCmd .cmdResp (setCount (s.j + 1#16) { xchg Config.pollTx true rx s with respR1 := rx }))
  | poll (hp : s.phase = .cmdPoll) (hv : r1Valid rx = false) (hj : s.j.toNat + 1 < 10) :
      BlockMove rx s (advance (setCount (s.j + 1#16) { xchg Config.pollTx true rx s with respR1 := rx }))
  | noResponse (hp : s.phase = .cmdPoll) (hv : r1Valid rx = false) (hj : ¬ s.j.toNat + 1 < 10) :
      BlockMove rx s (finishCmd .cmdNoResp (setCount (s.j + 1#16) { xchg Config.pollTx true rx s with respR1 := rx }))
  | token (hp : s.phase = .tokHunt) (ht : isToken rx = true) :
      BlockMove rx s (enter .payload (setCount (s.j + 1#16) (xchg Config.tokenPollTx true rx s)))
  | hunt (hp : s.phase = .tokHunt) (ht : isToken rx = false) (hj : s.j.toNat + 1 < 1000) :
      BlockMove rx s (advance (setCount (s.j + 1#16) (xchg Config.tokenPollTx true rx s)))
  | noToken (hp : s.phase = .tokHunt) (ht : isToken rx = false) (hj : ¬ s.j.toNat + 1 < 1000) :
      BlockMove rx s (complete .blkNoToken (setCount (s.j + 1#16) (xchg Config.tokenPollTx true rx s)))
  | store (hp : s.phase = .payload) (hj : s.j.toNat < 512) :
      BlockMove rx s (advance (storePayload s.j.toNat rx (xchg Config.fillTx true rx s)))
  | trailer (hp : s.phase = .payload) (h512 : ¬ s.j.toNat < 512) (hj : s.j.toNat + 1 < 514) :
      BlockMove rx s (advance (xchg Config.fillTx true rx s))
  | blockEnd (hp : s.phase = .payload) (h512 : ¬ s.j.toNat < 512) (hj : ¬ s.j.toNat + 1 < 514) :
      BlockMove rx s (finishBlock (xchg Config.fillTx true rx s))
  | clock (hp : s.phase = .clk) (hj : s.j.toNat + 1 < s.latch.n.toNat) :
      BlockMove rx s (advance (setCount (s.j + 1#16) (xchg Config.clockTx s.latch.cs rx s)))
  | clockEnd (hp : s.phase = .clk) (hj : ¬ s.j.toNat + 1 < s.latch.n.toNat) :
      BlockMove rx s (complete .clkDone (setCount (s.j + 1#16) (xchg Config.clockTx s.latch.cs rx s)))

theorem blockStep_blockMove (rx : Byte) {s : State} (hp : s.phase ≠ .idle) : BlockMove rx s (blockStep rx s) := by
  unfold blockStep
  split
  case h_1 h => exact absurd h hp
  case h_2 h => exact .prime h
  case h_3 h =>
    unfold pktStep
    split_ifs with hj
    · exact .packet h hj
    · exact .packetEnd h hj
  case h_4 h =>
    unfold pollStep
    split_ifs with hv hj
    · exact .response h hv
    · exact .poll h (by simpa using hv) hj
    · exact .noResponse h (by simpa using hv) hj
  case h_5 h =>
    unfold huntStep
    split_ifs with ht hj
    · exact .token h ht
    · exact .hunt h (by simpa using ht) hj
    · exact .noToken h (by simpa using ht) hj
  case h_6 h =>
    unfold payloadStep
    split_ifs with h512 hj
    · exact .store h h512
    · exact .trailer h h512 hj
    · exact .blockEnd h h512 hj
  case h_7 h =>
    unfold clkStep
    split_ifs with hj
    · exact .clock h hj
    · exact .clockEnd h hj

theorem BlockMove.running {rx : Byte} {s t : State} (h : BlockMove rx s t) : s.phase ≠ .idle := by
  cases h <;> simp [*]

/-- A byte the block does not take in IDLE is where it was (70_reset_and_hazards.md R274). -/
theorem putBack_dropRx {s : State} (h : s.env.miso ≠ []) : putBack (nextRx s) (dropRx s) = s := by
  obtain ⟨b, rest, hm⟩ := List.exists_cons_of_ne_nil h
  obtain ⟨hn, hd⟩ := dropRx_scripted hm
  rw [hn, hd]
  unfold putBack
  rw [← hm]

/-- A byte of the card that is an instruction means the exchange that receives it (log 9). -/
theorem exec_card {b : Byte} {i : Instr} (h : decode (.card b) = .ok i) (s : State) :
    exec i s = .next (blockStep b s) := by
  simp only [decode, decodeCard] at h
  split_ifs at h with h7 he
  · cases h; simp only [exec, execR1, r1_word b h7]
  · cases h; subst he; rfl

theorem blockStep_idle {s : State} (hp : s.phase = .idle) (rx : Byte) : blockStep rx s = putBack rx s := by
  unfold blockStep
  rw [hp]

/-- In IDLE the block's turn uses up the turn and nothing else, whatever is on the bus (10_state.md R46). -/
theorem step_block_idle {s : State} (ht : turn s = .block) (hp : s.phase = .idle) : step s = .next (popSched s) := by
  unfold step fetch
  rw [ht]
  by_cases hm : s.env.miso = []
  · simp [fetchBlock, hp, hm]
  · have hstay : blockStep (nextRx (popSched s)) (dropRx (popSched s)) = popSched s := by
      rw [blockStep_idle (by simpa using hp)]
      exact putBack_dropRx hm
    obtain ⟨_, hm', _⟩ | ⟨i, hd, hf⟩ | ⟨e, _, hf⟩ := fetchBlock_cases (popSched s)
    · exact absurd hm' hm
    · simp only [hf, exec_card hd, hstay]
    · simp only [hf, hstay]

/-- The block's turn is one of two things: in IDLE nothing, else the exchange of its phase. -/
theorem step_block_cases {s t : State} (ht : turn s = .block) (h : step s = .next t) :
    (s.phase = .idle ∧ t = popSched s) ∨ BlockMove (nextRx s) (dropRx (popSched s)) t := by
  by_cases hp : s.phase = .idle
  · rw [step_block_idle ht hp] at h
    cases h
    exact .inl ⟨hp, rfl⟩
  · rw [step_block ht hp] at h
    cases h
    exact .inr (blockStep_blockMove _ (by simpa using hp))

end Sys2Proof.Machine
end

section
/-! The invariant of the block, kept by every turn of either agent. -/

namespace Sys2Proof.Machine

/-- What the invariant says in IDLE. -/
theorem inv_iff_idle {s : State} (hp : s.phase = .idle) :
    s.inv = true ↔ s.status.busy = false ∧ s.csN = true ∧ s.resultOk = true ∧ Memory.wf s.data = true := by
  simp [State.inv, State.busyOk, State.phaseOk, hp, and_assoc]

/-- What the invariant says while an operation runs. -/
theorem inv_iff_running {s : State} (hp : s.phase ≠ .idle) :
    s.inv = true ↔
      s.status.busy = true ∧ s.status.result = .none ∧ s.phaseOk = true ∧ Memory.wf s.data = true := by
  simp only [State.inv, State.busyOk, State.resultOk, Bool.and_eq_true]
  cases hr : s.status.result <;> simp [hp, and_assoc]

/-! What `State.phaseOk` says in each phase. -/

theorem phaseOk_cmdPrime {s : State} (hp : s.phase = .cmdPrime) :
    s.phaseOk = true ↔ s.j = 0#16 ∧ s.status.count = 0#16 := by
  simp [State.phaseOk, hp]

theorem phaseOk_cmdPkt {s : State} (hp : s.phase = .cmdPkt) :
    s.phaseOk = true ↔ s.j.toNat < 6 ∧ s.status.count = 0#16 ∧ s.csN = false := by
  simp [State.phaseOk, hp, and_assoc]

theorem phaseOk_cmdPoll {s : State} (hp : s.phase = .cmdPoll) :
    s.phaseOk = true ↔ s.j.toNat < 10 ∧ s.status.count = s.j ∧ s.csN = false := by
  simp [State.phaseOk, hp, and_assoc]

theorem phaseOk_tokHunt {s : State} (hp : s.phase = .tokHunt) :
    s.phaseOk = true ↔ s.j.toNat < 1000 ∧ s.status.count = s.j ∧ (s.j = 0#16 ∨ s.csN = false) := by
  simp [State.phaseOk, hp, and_assoc]

theorem phaseOk_payload {s : State} (hp : s.phase = .payload) :
    s.phaseOk = true ↔
      s.j.toNat < 514 ∧ 1 ≤ s.status.count.toNat ∧ s.status.count.toNat ≤ 1000 ∧ s.csN = false := by
  simp [State.phaseOk, hp, and_assoc]

theorem phaseOk_clk {s : State} (hp : s.phase = .clk) :
    s.phaseOk = true ↔
      s.j.toNat < s.latch.n.toNat ∧ s.status.count = s.j ∧ (s.j = 0#16 ∨ s.csN = !s.latch.cs) := by
  simp [State.phaseOk, hp, and_assoc]

theorem inv_dropRx (s : State) : (dropRx s).inv = s.inv := by apply inv_congr <;> simp

theorem inv_popSched (s : State) : (popSched s).inv = s.inv := by apply inv_congr <;> simp

theorem reset_inv : State.reset.inv = true := by decide

theorem startSendCmd_inv {s : State} (hw : Memory.wf s.data = true) : (startSendCmd s).inv = true := by
  rw [inv_iff_running (by simp [startSendCmd])]
  simp [startSendCmd, State.phaseOk, hw]

theorem startReadBlock_inv {s : State} (hw : Memory.wf s.data = true) : (startReadBlock s).inv = true := by
  rw [inv_iff_running (by simp [startReadBlock])]
  simp [startReadBlock, State.phaseOk, hw]

/-- A CLOCK of no bytes is over at once; any other one is before its first byte (42_bus_clock_and_access.md R202). -/
theorem startClock_inv {s : State} (hw : Memory.wf s.data = true) : (startClock s).inv = true := by
  unfold startClock
  dsimp only
  split_ifs with hn
  · rw [inv_iff_idle (by simp)]
    simp [State.resultOk, hn, hw]
  · rw [inv_iff_running (by simp)]
    have hpos : 0 < s.regs.clkN.toNat := by bv_omega
    simp [State.phaseOk, hpos, hw]

theorem hostMove_inv {s t : State} (hi : s.inv = true) (h : HostMove s t) : t.inv = true := by
  have hw : Memory.wf s.data = true := by
    simp only [State.inv, Bool.and_eq_true] at hi
    exact hi.2
  cases h with
  | access r f e _ => rw [← hi]; apply inv_congr <;> rfl
  | sendCmd _ r e => exact startSendCmd_inv hw
  | readBlock _ r e => exact startReadBlock_inv hw
  | clock _ r e => exact startClock_inv hw
  | reset _ e => rw [← reset_inv]; apply inv_congr <;> rfl

/-- Counting an exchange does not wrap around, in any phase's range. -/
theorem toNat_succ {j : BitVec 16} {n : Nat} (hj : j.toNat < n) (hn : n < 65536 := by omega) :
    (j + 1#16).toNat = j.toNat + 1 := by
  rw [BitVec.toNat_add]
  exact Nat.mod_eq_of_lt (by simp only [BitVec.toNat_ofNat]; omega)

/-- An exchange keeps the invariant: what stays in the phase counts on, what leaves it ends with the COUNT its RESULT says. -/
theorem blockMove_inv {rx : Byte} {s t : State} (hi : s.inv = true) (h : BlockMove rx s t) : t.inv = true := by
  obtain ⟨hb, hr, hok, hw⟩ := (inv_iff_running h.running).mp hi
  cases h with
  | prime hp =>
    obtain ⟨_, hc⟩ := (phaseOk_cmdPrime hp).mp hok
    rw [inv_iff_running (by simp), phaseOk_cmdPkt (by simp)]
    simp [hb, hr, hc, hw]
  | packet hp hj =>
    obtain ⟨hlt, hc, _⟩ := (phaseOk_cmdPkt hp).mp hok
    rw [inv_iff_running (by simp [hp]), phaseOk_cmdPkt (by simp [hp])]
    simp [hb, hr, hc, hw, toNat_succ hlt, hj]
  | packetEnd hp _ =>
    obtain ⟨_, hc, _⟩ := (phaseOk_cmdPkt hp).mp hok
    rw [inv_iff_running (by simp), phaseOk_cmdPoll (by simp)]
    simp [hb, hr, hc, hw]
  | response hp hv =>
    obtain ⟨hlt, _⟩ := (phaseOk_cmdPoll hp).mp hok
    rw [inv_iff_idle (by simp)]
    simp [State.resultOk, hw, hv, toNat_succ hlt, hlt]
  | poll hp _ hj =>
    obtain ⟨hlt, _⟩ := (phaseOk_cmdPoll hp).mp hok
    rw [inv_iff_running (by simp [hp]), phaseOk_cmdPoll (by simp [hp])]
    simp [hb, hr, hw, toNat_succ hlt, hj]
  | noResponse hp hv hj =>
    obtain ⟨hlt, _⟩ := (phaseOk_cmdPoll hp).mp hok
    have hlast : s.j + 1#16 = 10#16 := by bv_omega
    rw [inv_iff_idle (by simp)]
    simp [State.resultOk, hw, hv, hlast]
  | token hp _ =>
    obtain ⟨hlt, _⟩ := (phaseOk_tokHunt hp).mp hok
    rw [inv_iff_running (by simp), phaseOk_payload (by simp)]
    simp [hb, hr, hw, toNat_succ hlt, hlt]
  | hunt hp _ hj =>
    obtain ⟨hlt, _⟩ := (phaseOk_tokHunt hp).mp hok
    rw [inv_iff_running (by simp [hp]), phaseOk_tokHunt (by simp [hp])]
    simp [hb, hr, hw, toNat_succ hlt, hj]
  | noToken hp _ hj =>
    obtain ⟨hlt, _⟩ := (phaseOk_tokHunt hp).mp hok
    have hlast : s.j + 1#16 = 1000#16 := by bv_omega
    rw [inv_iff_idle (by simp)]
    simp [State.resultOk, hw, hlast]
  | store hp hj =>
    obtain ⟨hlt, hcount⟩ := (phaseOk_payload hp).mp hok
    have hstored : Memory.wf (Memory.write s.data (Config.dataBase + s.j.toNat) rx) = true :=
      Memory.write_wf _ _ _ (Nat.le_add_right _ _) (by simp only [Config.dataBase, Config.windowSize]; omega) hw
    have hnext : s.j.toNat + 1 < 514 := by omega
    rw [inv_iff_running (by simp [hp]), phaseOk_payload (by simp [hp])]
    simp [hb, hr, hstored, toNat_succ hlt, hnext, hcount]
  | trailer hp _ hj =>
    obtain ⟨hlt, hcount⟩ := (phaseOk_payload hp).mp hok
    rw [inv_iff_running (by simp [hp]), phaseOk_payload (by simp [hp])]
    simp [hb, hr, hw, toNat_succ hlt, hj, hcount]
  | blockEnd hp _ _ =>
    obtain ⟨_, hcount⟩ := (phaseOk_payload hp).mp hok
    rw [inv_iff_idle (by simp)]
    simp [State.resultOk, hw, hcount]
  | clock hp hj =>
    obtain ⟨hlt, _⟩ := (phaseOk_clk hp).mp hok
    rw [inv_iff_running (by simp [hp]), phaseOk_clk (by simp [hp])]
    simp [hb, hr, hw, toNat_succ hlt s.latch.n.isLt, hj]
  | clockEnd hp hj =>
    obtain ⟨hlt, _⟩ := (phaseOk_clk hp).mp hok
    have hlast : s.j + 1#16 = s.latch.n := by bv_omega
    rw [inv_iff_idle (by simp)]
    simp [State.resultOk, hw, hlast]

/-- Settles O45: a host's turn touches nothing of the block, starts an operation or resets it; a block's turn waits or makes
the exchange of its phase. -/
theorem everyStepKeepsTheInvariant : Obligations.EveryStepKeepsTheInvariant := by
  intro s t hi h
  cases ht : turn s with
  | host => exact hostMove_inv hi (step_hostMove ht h)
  | block =>
    obtain ⟨_, rfl⟩ | hm := step_block_cases ht h
    · rw [inv_popSched]; exact hi
    · exact blockMove_inv (by rw [inv_dropRx, inv_popSched]; exact hi) hm

/-- Settles O43, the base case of O45. -/
theorem resetMeetsTheInvariant : Obligations.ResetMeetsTheInvariant := reset_inv

end Sys2Proof.Machine
end

section
/-! What one turn changes and what it leaves: the history, the latches, DATA, RESP.R1 and the hidden counter. -/

namespace Sys2Proof.Machine

/-- The environment is the card's and the host's: an exchange itself does not touch it. -/
theorem BlockMove.env_eq {rx : Byte} {s t : State} (h : BlockMove rx s t) : t.env = s.env := by
  cases h <;> rfl

theorem BlockMove.latch_eq {rx : Byte} {s t : State} (h : BlockMove rx s t) : t.latch = s.latch := by
  cases h <;> rfl

/-- One triple, with chip-select low but in a CLOCK whose L_CS is 0 (10_state.md R49, 40_command_framer.md R148). -/
theorem BlockMove.history_eq {rx : Byte} {s t : State} (h : BlockMove rx s t) :
    t.history = s.history ++ [⟨t.mosi, rx, if s.phase = .clk then s.latch.cs else true⟩] := by
  cases h <;> simp [*]

theorem BlockMove.data_eq {rx : Byte} {s t : State} (h : BlockMove rx s t)
    (hn : ¬ (s.phase = .payload ∧ s.j.toNat < 512)) : t.data = s.data := by
  cases h with
  | store hp hj => exact absurd ⟨hp, hj⟩ hn
  | _ => rfl

theorem BlockMove.respR1_eq {rx : Byte} {s t : State} (h : BlockMove rx s t) (hn : s.phase ≠ .cmdPoll) :
    t.respR1 = s.respR1 := by
  cases h with
  | response hp _ => exact absurd hp hn
  | poll hp _ _ => exact absurd hp hn
  | noResponse hp _ _ => exact absurd hp hn
  | _ => rfl

/-- Only a completion leads to IDLE, and a completion leaves `j` (log 25). -/
theorem BlockMove.j_eq_of_idle {rx : Byte} {s t : State} (h : BlockMove rx s t) (ht : t.phase = .idle) : t.j = s.j := by
  have hr := h.running
  cases h with
  | response | noResponse | noToken | blockEnd | clockEnd => rfl
  | prime | packetEnd | token => cases ht
  | packet | poll | hunt | store | trailer | clock => exact absurd ht hr

theorem startClock_frame (s : State) :
    (startClock s).history = s.history ∧ (startClock s).data = s.data ∧ (startClock s).respR1 = s.respR1 := by
  unfold startClock
  dsimp only
  split_ifs <;> exact ⟨rfl, rfl, rfl⟩

/-- No host's turn but reset exchanges a byte or writes DATA or RESP.R1 (20_memory.md R76, R81). -/
theorem HostMove.frame {s t : State} (h : HostMove s t) (hn : s.env.hostQ.head? ≠ some .reset) :
    t.history = s.history ∧ t.data = s.data ∧ t.respR1 = s.respR1 := by
  cases h with
  | access | sendCmd | readBlock => exact ⟨rfl, rfl, rfl⟩
  | clock _ r e => exact startClock_frame { s with regs := r, env := e }
  | reset hq _ => exact absurd hq hn

/-- The latches are written by starts, and nothing starts while BUSY = 1 (10_state.md R43). -/
theorem HostMove.latch_eq {s t : State} (h : HostMove s t) (hb : s.status.busy = true)
    (hn : s.env.hostQ.head? ≠ some .reset) : t.latch = s.latch := by
  cases h with
  | access => rfl
  | sendCmd h0 | readBlock h0 | clock h0 => exact absurd (hb.symm.trans h0) Bool.noConfusion
  | reset hq _ => exact absurd hq hn

/-- Settles O29: no exchange that ends in IDLE counts itself, and a waiting block moves nothing. -/
theorem completionLeavesTheCounter : Obligations.CompletionLeavesTheCounter := by
  intro s t ht h hidle
  obtain ⟨_, rfl⟩ | hm := step_block_cases ht h
  · rfl
  · simpa using hm.j_eq_of_idle hidle

/-- Settles O46: the three parts are the block's wait, its exchange, and the frame of a host's turn. -/
theorem oneExchangePerBlockStep : Obligations.OneExchangePerBlockStep := by
  intro s t h
  refine ⟨fun ht hp => ?_, fun ht hp => ?_, fun ht hn => ((step_hostMove ht h).frame hn).1⟩ <;>
    obtain ⟨hidle, rfl⟩ | hm := step_block_cases ht h
  · rfl
  · exact absurd (by simpa using hp) hm.running
  · exact absurd hidle hp
  · exact ⟨_, rfl, by simpa using hm.history_eq⟩

/-- Settles O50: each part is the frame of the block's exchange, or of the host's turn. -/
theorem onlyTheirPhasesWriteDataAndResp : Obligations.OnlyTheirPhasesWriteDataAndResp := by
  intro s t h
  cases ht : turn s with
  | host =>
    by_cases hq : s.env.hostQ.head? = some .reset
    · exact ⟨fun _ => .inr ⟨rfl, hq⟩, fun _ => .inr ⟨rfl, hq⟩⟩
    · obtain ⟨_, hd, hr⟩ := (step_hostMove ht h).frame hq
      exact ⟨fun hne => absurd hd hne, fun hne => absurd hr hne⟩
  | block =>
    obtain ⟨_, rfl⟩ | hm := step_block_cases ht h
    · exact ⟨fun hne => absurd rfl hne, fun hne => absurd rfl hne⟩
    · refine ⟨fun hne => .inl ⟨rfl, ?_⟩, fun hne => .inl ⟨rfl, ?_⟩⟩
      · by_contra hn
        exact hne (by simpa using hm.data_eq (by simpa using hn))
      · by_contra hn
        exact hne (by simpa using hm.respR1_eq (by simpa using hn))

/-- Settles O51: exchanges never write the latches, and no operation starts while BUSY = 1. -/
theorem latchesAreFixedWhileBusy : Obligations.LatchesAreFixedWhileBusy := by
  intro s t h hbusy
  cases ht : turn s with
  | host =>
    have hb : s.status.busy = true := hbusy.resolve_right (by simp [ht])
    by_cases hq : s.env.hostQ.head? = some .reset
    · exact .inr ⟨rfl, hq⟩
    · exact .inl ((step_hostMove ht h).latch_eq hb hq)
  | block =>
    obtain ⟨_, rfl⟩ | hm := step_block_cases ht h
    · exact .inl rfl
    · exact .inl (by simpa using hm.latch_eq)

/-- Settles O6: the access is permitted and the word decodes, so the fetch is that instruction. -/
theorem stepRunsOperationWord : Obligations.StepRunsOperationWord := by
  intro s w rest i ⟨ht, hq⟩ hd
  have hpop : popHost (popSched s) = Claim.acted s rest := by simp [popHost, popSched, Claim.acted, hq]
  have hw : fetchWrite 0 4 w (Claim.acted s rest) = .run i (Claim.acted s rest) := by
    simp [fetchWrite, regAccess, hd]
  have hf : fetchHost (popSched s) = .run i (Claim.acted s rest) := by
    simp only [fetchHost, popSched_env, hq, hpop, hw]
  exact step_host_run ht hf

/-- Settles O8: there is a byte on the bus and it decodes, so the fetch is that instruction. -/
theorem stepRunsCardByte : Obligations.StepRunsCardByte := by
  intro s b rest i ht hm hd
  obtain ⟨hn, hdrop⟩ := dropRx_scripted (s := popSched s) hm
  have hf : fetchBlock (popSched s) = .run i (dropRx (popSched s)) := by
    simp [fetchBlock, hm, hn, hd]
  simp only [step, fetch, ht, hf, hdrop]
  rfl

end Sys2Proof.Machine
end

section
/-! The block does not read the host's registers while it runs (10_state.md R43, 70_reset_and_hazards.md R275). -/

namespace Sys2Proof.Machine

/-- `s` with other contents of CMD, ARG and CLKCNT. -/
def withRegs (r : HostRegs) (s : State) : State := { s with regs := r }

theorem dropRx_withRegs (r : HostRegs) (s : State) : dropRx (withRegs r s) = withRegs r (dropRx s) := by
  unfold dropRx withRegs
  cases s.env.miso <;> rfl

/-- An exchange sees the latches, the phase and the received byte, and no host register. -/
theorem blockStep_withRegs (rx : Byte) (r : HostRegs) (s : State) :
    blockStep rx (withRegs r s) = withRegs r (blockStep rx s) := by
  have hp : (withRegs r s).phase = s.phase := rfl
  unfold blockStep
  rw [hp]
  cases s.phase with
  | idle => rfl
  | cmdPrime => rfl
  | cmdPkt => simp only [pktStep, apply_ite (withRegs r)]; rfl
  | cmdPoll => simp only [pollStep, apply_ite (withRegs r)]; rfl
  | tokHunt => simp only [huntStep, apply_ite (withRegs r)]; rfl
  | payload => simp only [payloadStep, apply_ite (withRegs r)]; rfl
  | clk => simp only [clkStep, apply_ite (withRegs r)]; rfl

/-- One block turn of two states that differ in the host's registers leaves two states that differ in them. -/
theorem step_block_withRegs {s : State} (r : HostRegs) (ht : turn s = .block) :
    ∃ t, step s = .next t ∧ step (withRegs r s) = .next (withRegs r t) ∧ t.env.sched = s.env.sched.tail := by
  have ht' : turn (withRegs r s) = .block := ht
  by_cases hp : s.phase = .idle
  · exact ⟨popSched s, step_block_idle ht hp, step_block_idle ht' hp, rfl⟩
  · have hpop : popSched (withRegs r s) = withRegs r (popSched s) := rfl
    have hrx : nextRx (withRegs r s) = nextRx s := rfl
    have hm := blockStep_blockMove (nextRx s) (s := dropRx (popSched s)) (by simpa using hp)
    refine ⟨_, step_block ht hp, ?_, by simp [hm.env_eq]⟩
    rw [step_block ht' hp, hrx, hpop, dropRx_withRegs, blockStep_withRegs]

/-- Settles O52, by induction on the number of turns. -/
theorem runningOperationIgnoresRegisterWrites : Obligations.RunningOperationIgnoresRegisterWrites := by
  intro k s r hs
  induction k generalizing s with
  | zero => exact ⟨s, rfl, rfl⟩
  | succ k ih =>
    have ht : turn s = .block := by simp [turn, hs, List.replicate_succ]
    obtain ⟨u, hu, hur, hsched⟩ := step_block_withRegs r ht
    obtain ⟨t, h1, h2⟩ := ih u (by rw [hsched, hs]; rfl)
    exact ⟨t, (run_next k hu).trans h1, (run_next k hur).trans h2⟩

end Sys2Proof.Machine
end

section
/-! The count an operation ends with, known from the bytes the card is going to answer (10_state.md R38; log 5). -/

namespace Sys2Proof.Machine

/-- Looking for the end of a poll loop one exchange later is looking one byte further. -/
theorem pollEnd_shift (hit : Byte → Bool) (rx : Nat → Byte) (fuel n k : Nat) :
    pollEnd hit (fun i => rx (i + 1)) fuel n k = pollEnd hit rx fuel n (k + 1) := by
  induction fuel generalizing n k with
  | zero => rfl
  | succ fuel ih => simp only [pollEnd, ih]

theorem pollEnd_hit {hit : Byte → Bool} {rx : Nat → Byte} {k : Nat} (h : hit (rx k) = true) (fuel n : Nat) :
    pollEnd hit rx fuel n k = n := by
  cases fuel with
  | zero => rfl
  | succ fuel => simp [pollEnd, h]

theorem pollEnd_miss {hit : Byte → Bool} {rx : Nat → Byte} {k : Nat} (h : hit (rx k) = false) (fuel n : Nat) :
    pollEnd hit rx (fuel + 1) n k = pollEnd hit rx fuel (n + 1) (k + 1) := by
  simp [pollEnd, h]

theorem finalCount_idle {s : State} (hp : s.phase = .idle) : finalCount s = s.status.count.toNat := by
  simp only [finalCount, hp]

theorem finalCount_cmdPrime {s : State} (hp : s.phase = .cmdPrime) :
    finalCount s = pollEnd r1Valid (rxAt s) 9 1 7 := by
  simp only [finalCount, hp, Config.r1PollLimit, Config.cmdLen]

theorem finalCount_cmdPkt {s : State} (hp : s.phase = .cmdPkt) :
    finalCount s = pollEnd r1Valid (rxAt s) 9 1 (6 - s.j.toNat) := by
  simp only [finalCount, hp, Config.r1PollLimit, Config.cmdLen]

theorem finalCount_cmdPoll {s : State} (hp : s.phase = .cmdPoll) :
    finalCount s = pollEnd r1Valid (rxAt s) (10 - (s.j.toNat + 1)) (s.j.toNat + 1) 0 := by
  simp only [finalCount, hp]

theorem finalCount_tokHunt {s : State} (hp : s.phase = .tokHunt) :
    finalCount s = pollEnd isToken (rxAt s) (1000 - (s.j.toNat + 1)) (s.j.toNat + 1) 0 := by
  simp only [finalCount, hp]

theorem finalCount_payload {s : State} (hp : s.phase = .payload) : finalCount s = s.status.count.toNat := by
  simp only [finalCount, hp]

theorem finalCount_clk {s : State} (hp : s.phase = .clk) : finalCount s = s.latch.n.toNat := by
  simp only [finalCount, hp]

theorem finalCount_popSched (s : State) : finalCount (popSched s) = finalCount s :=
  finalCount_congr (rxAt_congr rfl rfl) rfl rfl rfl rfl

/-- An exchange keeps the final COUNT: the byte it receives is the first of those the final COUNT was read from. -/
theorem blockMove_finalCount {s t : State} (hok : s.phaseOk = true) (h : BlockMove (nextRx s) (dropRx s) t) :
    finalCount t = finalCount s := by
  have hnext : rxAt t = fun k => rxAt s (k + 1) := by
    rw [rxAt_congr (congrArg Env.miso h.env_eq) (congrArg Env.cardDraws h.env_eq)]
    exact funext (rxAt_dropRx s)
  have hfirst : rxAt s 0 = nextRx s := rxAt_zero s
  cases h
  -- Taking the byte off the bus leaves the phase, the counter and the latches, so every case speaks of `s` itself.
  all_goals simp only [dropRx_phase, dropRx_j, dropRx_latch] at *
  case prime hp =>
    rw [finalCount_cmdPrime hp, finalCount_cmdPkt (by simp), hnext, pollEnd_shift]
    rfl
  case packet hp hj =>
    rw [finalCount_cmdPkt hp, finalCount_cmdPkt (by simp [hp]), hnext, pollEnd_shift, advance_j, xchg_j, dropRx_j,
      toNat_succ (Nat.lt_of_succ_lt hj)]
    congr 1
    omega
  case packetEnd hp hj =>
    obtain ⟨hlt, _⟩ := (phaseOk_cmdPkt hp).mp hok
    have hlast : 6 - s.j.toNat = 1 := by omega
    rw [finalCount_cmdPkt hp, finalCount_cmdPoll (by simp), hnext, pollEnd_shift, hlast]
    rfl
  case response hv hp =>
    obtain ⟨hlt, _⟩ := (phaseOk_cmdPoll hp).mp hok
    rw [finalCount_cmdPoll hp, finalCount_idle (by simp), pollEnd_hit (hfirst ▸ hv)]
    exact toNat_succ hlt
  case poll hv hp hj =>
    have hfuel : 10 - (s.j.toNat + 1) = (10 - (s.j.toNat + 1 + 1)) + 1 := by omega
    rw [finalCount_cmdPoll hp, finalCount_cmdPoll (by simp [hp]), hnext, pollEnd_shift, hfuel,
      pollEnd_miss (hfirst ▸ hv)]
    simp only [advance_j, setCount_j, xchg_j, dropRx_j, toNat_succ (Nat.lt_of_succ_lt hj)]
  case noResponse _ hp hj =>
    obtain ⟨hlt, _⟩ := (phaseOk_cmdPoll hp).mp hok
    have hfuel : 10 - (s.j.toNat + 1) = 0 := by omega
    rw [finalCount_cmdPoll hp, finalCount_idle (by simp), hfuel]
    exact toNat_succ hlt
  case token ht hp =>
    obtain ⟨hlt, _⟩ := (phaseOk_tokHunt hp).mp hok
    rw [finalCount_tokHunt hp, finalCount_payload (by simp), pollEnd_hit (hfirst ▸ ht)]
    exact toNat_succ hlt
  case hunt ht hp hj =>
    have hfuel : 1000 - (s.j.toNat + 1) = (1000 - (s.j.toNat + 1 + 1)) + 1 := by omega
    rw [finalCount_tokHunt hp, finalCount_tokHunt (by simp [hp]), hnext, pollEnd_shift, hfuel,
      pollEnd_miss (hfirst ▸ ht)]
    simp only [advance_j, setCount_j, xchg_j, dropRx_j, toNat_succ (Nat.lt_of_succ_lt hj)]
  case noToken _ hp hj =>
    obtain ⟨hlt, _⟩ := (phaseOk_tokHunt hp).mp hok
    have hfuel : 1000 - (s.j.toNat + 1) = 0 := by omega
    rw [finalCount_tokHunt hp, finalCount_idle (by simp), hfuel]
    exact toNat_succ hlt
  case store hp _ =>
    rw [finalCount_payload hp, finalCount_payload (by simp [hp])]
    simp
  case trailer hp _ _ =>
    rw [finalCount_payload hp, finalCount_payload (by simp [hp])]
    simp
  case blockEnd hp _ _ =>
    rw [finalCount_payload hp, finalCount_idle (by simp)]
    simp
  case clock hp _ =>
    rw [finalCount_clk hp, finalCount_clk (by simp [hp])]
    simp
  case clockEnd hp hj =>
    obtain ⟨hlt, _⟩ := (phaseOk_clk hp).mp hok
    have hlast : s.j.toNat + 1 = s.latch.n.toNat := by omega
    rw [finalCount_clk hp, finalCount_idle (by simp), ← hlast]
    exact toNat_succ hlt s.latch.n.isLt

/-- Settles O53: in IDLE the final COUNT is COUNT, so the second part is the first at the completing exchange. -/
theorem finalCountIsKeptToTheEnd : Obligations.FinalCountIsKeptToTheEnd := by
  intro s t hi ht h
  have hkept : finalCount t = finalCount s := by
    obtain ⟨_, rfl⟩ | hm := step_block_cases ht h
    · exact finalCount_popSched s
    · obtain ⟨_, _, hok, _⟩ := (inv_iff_running (by simpa using hm.running)).mp ((inv_popSched s).trans hi)
      exact (blockMove_finalCount hok hm).trans (finalCount_popSched s)
  exact ⟨hkept, fun hidle => (finalCount_idle hidle).symm.trans hkept⟩

end Sys2Proof.Machine
end

section
/-! Host accesses (20_memory.md R71 to R84): which are permitted, and what a host's turn makes of a read and of a write. -/

namespace Sys2Proof.Machine

open Claim

/-! ### Offsets and permitted accesses -/

/-- Settles O5: the distance from BASE is the offset itself, whose bits [9:0] lose nothing below 0x400. -/
theorem windowOffsetIsRelativeToBase : Obligations.WindowOffsetIsRelativeToBase := by
  intro off hoff
  have hdist : Config.base + BitVec.ofNat 32 off - Config.base = BitVec.ofNat 32 off := by
    rw [BitVec.add_comm, BitVec.add_sub_cancel]
  rw [windowOffset, hdist, BitVec.extractLsb'_toNat, BitVec.toNat_ofNat]
  omega

theorem regAccess_iff (off n : Nat) : regAccess off n = true ↔ n = 4 ∧ off % 4 = 0 ∧ off ≤ 0x014 := by
  simp [regAccess, and_assoc]

theorem dataAccess_iff (off n : Nat) :
    dataAccess off n = true ↔ (n = 1 ∨ n = 2 ∨ n = 4) ∧ off % n = 0 ∧ 0x200 ≤ off ∧ off ≤ 0x3FF := by
  simp [dataAccess, and_assoc, or_assoc, Nat.lt_succ_iff]

theorem readFault_of_not_access {off n : Nat} (hreg : ¬ regAccess off n = true) (hdata : ¬ dataAccess off n = true)
    (s : State) : readFault off n s = some .access := by
  rw [readFault, if_neg hreg, if_neg hdata]

theorem writeFault_of_not_access {off n : Nat} (hreg : ¬ regAccess off n = true) (w : Word) :
    writeFault off n w = some .access := by
  unfold writeFault
  rw [if_neg hreg]

/-! ### What a read looks at -/

/-- What a permitted read returns is read from the registers, STATUS, RESP and DATA alone, but for the free COUNT of a running
operation (42_bus_clock_and_access.md R208; log 5). -/
theorem readValue_congr {s t : State} (off n : Nat) (hregs : s.regs = t.regs) (hstatus : s.status = t.status)
    (hresp : s.respR1 = t.respR1) (hdata : s.data = t.data) (hidle : off = 0x00C → s.status.busy = false) :
    readValue off n s = readValue off n t := by
  have hcount : off = 0x00C → busyCount s = busyCount t := fun h => by
    simp [busyCount, hidle h, ← hstatus]
  unfold readValue
  split
  case h_1 => rfl
  case h_2 => rw [hregs]
  case h_3 => rw [hregs]
  case h_4 => rw [hcount rfl, hstatus]
  case h_5 => rw [hresp]
  case h_6 => rw [hregs]
  case h_7 => rw [hdata]

/-- An answered read leaves what the next read of the same place returns. -/
theorem readValue_answered {off n : Nat} (s : State) (rest : List HostAct) (v : Word)
    (hidle : off = 0x00C → s.status.busy = false) :
    readValue off n (answered (acted s rest) off n v) = readValue off n s :=
  Eq.symm (readValue_congr off n rfl rfl rfl rfl hidle)

/-! ### The host's turn on an access -/

theorem popHost_popSched {s : State} {a : HostAct} {rest : List HostAct} (hq : s.env.hostQ = a :: rest) :
    popHost (popSched s) = acted s rest := by
  simp [popHost, popSched, acted, hq]

theorem step_read {s : State} {off n : Nat} {rest : List HostAct} (h : HostDoes s (.read off n) rest) :
    step s = .next (memRead off n (acted s rest)) := by
  obtain ⟨ht, hq⟩ := h
  apply step_host_moved ht
  simp only [fetchHost, popSched_env, hq, popHost_popSched hq]

/-- A write that is no permitted access to CTRL starts nothing. -/
theorem step_write {s : State} {off n : Nat} {w : Word} {rest : List HostAct} (h : HostDoes s (.write off n w) rest)
    (hctrl : ¬ (off = 0 ∧ regAccess off n = true)) : step s = .next (memWrite off n w (acted s rest)) := by
  obtain ⟨ht, hq⟩ := h
  apply step_host_moved ht
  simp only [fetchHost, popSched_env, hq, popHost_popSched hq, fetchWrite, if_neg hctrl]

theorem step_read_fault {s : State} {off n : Nat} {rest : List HostAct} {f : Fault}
    (h : HostDoes s (.read off n) rest) (hf : readFault off n s = some f) :
    step s = .next (answered (faulted (acted s rest) f off none) off n (openValue n s)) := by
  have hf' : readFault off n (acted s rest) = some f := hf
  rw [step_read h, memRead, hf']
  rfl

theorem step_read_permitted {s : State} {off n : Nat} {rest : List HostAct} (h : HostDoes s (.read off n) rest)
    (hf : readFault off n s = none) (hidle : off = 0x00C → s.status.busy = false) :
    step s = .next (answered (acted s rest) off n (readValue off n s)) := by
  have hf' : readFault off n (acted s rest) = none := hf
  have hv : readValue off n (acted s rest) = readValue off n s := readValue_congr off n rfl rfl rfl rfl hidle
  rw [step_read h, memRead, hf', hv]
  rfl

theorem step_write_fault {s : State} {off n : Nat} {w : Word} {rest : List HostAct} {f : Fault}
    (h : HostDoes s (.write off n w) rest) (hctrl : ¬ (off = 0 ∧ regAccess off n = true))
    (hf : writeFault off n w = some f) : step s = .next (faulted (acted s rest) f off (some w)) := by
  rw [step_write h hctrl, memWrite, hf]
  rfl

/-! ### The statements -/

/-- Settles O37: an access outside R79(a) and (b) is F_ACCESS before anything else of the state is looked at. -/
theorem badAccessIsRefused : Obligations.BadAccessIsRefused := by
  intro s off n rest hbad
  have hreg : ¬ regAccess off n = true := mt (regAccess_iff off n).mp hbad
  constructor
  · intro h hbadData
    have hdata : ¬ dataAccess off n = true := mt (dataAccess_iff off n).mp hbadData
    exact ⟨_, step_read_fault h (readFault_of_not_access hreg hdata s)⟩
  · intro w h
    exact step_write_fault h (fun hctrl => hreg hctrl.2) (writeFault_of_not_access hreg w)

/-- Settles O55: the first read leaves all that the second one looks at. -/
theorem readsAreIdempotent : Obligations.ReadsAreIdempotent := by
  intro s t u off n rest h hf hidle hst ht hsu
  rw [step_read_permitted h hf hidle] at hst
  cases hst
  have hagain : HostDoes (answered (acted s (.read off n :: rest)) off n (readValue off n s)) (.read off n) rest :=
    ⟨ht, rfl⟩
  rw [step_read_permitted hagain hf hidle, readValue_answered _ _ _ hidle] at hsu
  cases hsu
  exact ⟨readValue off n s, List.append_assoc .., rfl, rfl, rfl, rfl, rfl, rfl⟩

end Sys2Proof.Machine
end

section
/-! The three word formats (30_encoding.md R100 to R105, R110): the fields of a word, the word of the fields, and so the
decoder and the encoder as inverses of each other. -/

namespace Sys2Proof

/-! ### Command packets: the bits and their fields -/

/-- Above the CRC byte a packet is its marker bits, index and argument (30_encoding.md R100). -/
theorem packetBits_extractLsb' (index : BitVec 6) (arg : BitVec 32) (crc : BitVec 8) {start len : Nat}
    (h : 8 ≤ start) :
    (packetBits index arg crc).extractLsb' start len = (1#2 ++ index ++ arg).extractLsb' (start - 8) len :=
  BitVec.extractLsb'_append_eq_of_le h

/-- Start bit 0 and transmission bit 1, whatever the operands (30_encoding.md R101). -/
theorem packetBits_start (index : BitVec 6) (arg : BitVec 32) (crc : BitVec 8) :
    (packetBits index arg crc).extractLsb' 46 2 = 1#2 := by
  rw [packetBits_extractLsb' _ _ _ (by decide), BitVec.extractLsb'_append_eq_of_le (by decide)]
  exact BitVec.extractLsb'_append_eq_left

theorem packetIndex_packetBits (index : BitVec 6) (arg : BitVec 32) (crc : BitVec 8) :
    packetIndex (packetBits index arg crc) = index := by
  rw [packetIndex, packetBits_extractLsb' _ _ _ (by decide), BitVec.extractLsb'_append_eq_of_le (by decide)]
  exact BitVec.extractLsb'_append_eq_right

theorem packetArg_packetBits (index : BitVec 6) (arg : BitVec 32) (crc : BitVec 8) :
    packetArg (packetBits index arg crc) = arg := by
  rw [packetArg, packetBits_extractLsb' _ _ _ (by decide)]
  exact BitVec.extractLsb'_append_eq_right

theorem packetCrc_packetBits (index : BitVec 6) (arg : BitVec 32) (crc : BitVec 8) :
    packetCrc (packetBits index arg crc) = crc :=
  BitVec.extractLsb'_append_eq_right

/-- A word with the two marker bits of a packet is the packet of its own fields: they leave no bit out. -/
theorem packetBits_fields {p : BitVec 48} (h : p.extractLsb' 46 2 = 1#2) :
    packetBits (packetIndex p) (packetArg p) (packetCrc p) = p := by
  rw [packetBits, ← h, packetIndex, packetArg, packetCrc]
  simp only [BitVec.extractLsb'_append_extractLsb'_eq_extractLsb']
  exact BitVec.extractLsb'_eq_self

/-! ### Command packets: the rows -/

/-- A generic packet is well-formed exactly where no named row has it (30_encoding.md R115; log 10). -/
theorem sdCmd_wellFormed_iff (index : BitVec 6) (arg : BitVec 32) (crc : BitVec 8) :
    (Instr.sdCmd index arg crc).wellFormed = true ↔
      ¬ (index = 0#6 ∧ arg = 0#32 ∧ crc = 0x95#8) ∧ ¬ (index = 8#6 ∧ arg = 0x1AA#32 ∧ crc = 0x87#8) ∧
      ¬ (index = 55#6 ∧ arg = 0#32 ∧ crc = 0x65#8) ∧ ¬ (index = 41#6 ∧ arg = 0x40000000#32 ∧ crc = 0x77#8) ∧
      index ≠ 56#6 := by
  simp only [Instr.wellFormed, Bool.not_eq_true', ← Bool.not_eq_true]
  simp only [namedPacket, Bool.or_eq_true, Bool.and_eq_true, beq_iff_eq, not_or, and_assoc, ne_eq]

theorem packetInstr_of_wellFormed {index : BitVec 6} {arg : BitVec 32} {crc : BitVec 8}
    (h : (Instr.sdCmd index arg crc).wellFormed = true) : packetInstr index arg crc = .sdCmd index arg crc := by
  obtain ⟨h0, h8, h55, h41, h56⟩ := (sdCmd_wellFormed_iff index arg crc).mp h
  rw [packetInstr, if_neg h0, if_neg h8, if_neg h55, if_neg h41, if_neg h56]

/-- The decoder reads the generic row only where no named row is. -/
theorem packetInstr_wellFormed (index : BitVec 6) (arg : BitVec 32) (crc : BitVec 8) :
    (packetInstr index arg crc).wellFormed = true := by
  unfold packetInstr
  split_ifs with h0 h8 h55 h41 h56
  case neg => exact (sdCmd_wellFormed_iff index arg crc).mpr ⟨h0, h8, h55, h41, h56⟩
  all_goals rfl

/-- Each named row's word is the packet of the operands that select it (30_encoding.md R115). -/
theorem encode_packetInstr (index : BitVec 6) (arg : BitVec 32) (crc : BitVec 8) :
    encode (packetInstr index arg crc) = .packet (packetBits index arg crc) := by
  unfold packetInstr
  split_ifs with h0 h8 h55 h41 h56
  · obtain ⟨rfl, rfl, rfl⟩ := h0; rfl
  · obtain ⟨rfl, rfl, rfl⟩ := h8; rfl
  · obtain ⟨rfl, rfl, rfl⟩ := h55; rfl
  · obtain ⟨rfl, rfl, rfl⟩ := h41; rfl
  · subst h56; rfl
  · rfl

/-! ### Decoding, format by format -/

/-- Every packet decodes, to the row of its operands. -/
theorem decode_packetBits (index : BitVec 6) (arg : BitVec 32) (crc : BitVec 8) :
    decode (.packet (packetBits index arg crc)) = .ok (packetInstr index arg crc) := by
  rw [decode, decodePacket, if_pos (packetBits_start index arg crc), packetIndex_packetBits, packetArg_packetBits,
    packetCrc_packetBits]

theorem decode_packet_ok {p : BitVec 48} {i : Instr} (h : decode (.packet p) = .ok i) :
    encode i = .packet p ∧ i.wellFormed = true := by
  simp only [decode, decodePacket] at h
  split_ifs at h with hstart
  cases h
  exact ⟨by rw [encode_packetInstr, packetBits_fields hstart], packetInstr_wellFormed _ _ _⟩

/-- A word whose reserved bits are 0 is its two low bits (30_encoding.md R110, R112). -/
theorem ctrlWord_eq_low {w : BitVec 32} (h : w.extractLsb' 2 30 = 0#30) : 0#30 ++ w.extractLsb' 0 2 = w := by
  rw [← h]
  exact BitVec.extractLsb'_append_extractLsb'

theorem decode_ctrl_ok {w : BitVec 32} {i : Instr} (h : decode (.ctrl w) = .ok i) :
    encode i = .ctrl w ∧ i.wellFormed = true := by
  have hops : ∀ op : BitVec 2, op = 0#2 ∨ op = 1#2 ∨ op = 2#2 ∨ op = 3#2 := by decide
  simp only [decode, decodeCtrl] at h
  split_ifs at h with hreserved
  rw [← ctrlWord_eq_low (not_not.mp hreserved)]
  obtain hop | hop | hop | hop := hops (w.extractLsb' 0 2)
  all_goals
    rw [hop] at h ⊢
    cases h
    exact ⟨rfl, rfl⟩

theorem decode_r1 (status : BitVec 7) : decode (.card (0#1 ++ status)) = .ok (.r1 status) := by
  have h7 : (0#1 ++ status).getLsbD 7 = false := by rw [BitVec.getLsbD_append]; rfl
  have hstatus : (0#1 ++ status).extractLsb' 0 7 = status := BitVec.extractLsb'_append_eq_right
  exact (if_pos h7).trans (by rw [hstatus])

theorem decode_card_ok {b : BitVec 8} {i : Instr} (h : decode (.card b) = .ok i) :
    encode i = .card b ∧ i.wellFormed = true := by
  simp only [decode, decodeCard] at h
  split_ifs at h with h7 htoken
  · cases h; exact ⟨congrArg Wire.card (Machine.r1_word b h7), rfl⟩
  · cases h; exact ⟨congrArg Wire.card htoken.symm, rfl⟩

/-! ### The statements -/

/-- Settles O2: a row without operands is one word; a packet with operands goes through the row they select. -/
theorem decodeOfEncodeIsTheInstruction : Obligations.DecodeOfEncodeIsTheInstruction := by
  intro i hwf
  cases i with
  | sdCmd index arg crc =>
    exact (decode_packetBits index arg crc).trans (congrArg Except.ok (packetInstr_of_wellFormed hwf))
  | cmd56 arg crc => exact decode_packetBits 56#6 arg crc
  | r1 status => exact decode_r1 status
  | nop | sendCmd | readBlock | clock | cmd0 | cmd8 | cmd55 | acmd41 | startToken => rfl

/-- Settles O3, format by format. -/
theorem encodeOfDecodeIsTheWord : Obligations.EncodeOfDecodeIsTheWord := by
  intro x i h
  cases x with
  | ctrl w => exact decode_ctrl_ok h
  | packet p => exact decode_packet_ok h
  | card b => exact decode_card_ok h

/-- Settles O1, word by word. -/
theorem wordsOfTheSpecDecode : Obligations.WordsOfTheSpecDecode :=
  ⟨rfl, rfl, rfl, rfl, rfl, rfl, rfl, rfl, rfl, rfl, rfl⟩

end Sys2Proof
end

section
/-! The six bytes on the wire are the bits of the packet (30_encoding.md R100 to R103). -/

namespace Sys2Proof.Machine

/-- Byte 0 is the two marker bits and the index. -/
theorem pktByte_zero (l : Latches) : pktByte l 0 = (packetBits l.idx l.arg l.crc).extractLsb' 40 8 := by
  have hbyte : ∀ idx : BitVec 6, Config.cmdPrefix ||| idx.setWidth 8 = 1#2 ++ idx := by decide
  rw [packetBits_extractLsb' _ _ _ (by decide), BitVec.extractLsb'_append_eq_of_le (by decide)]
  exact (hbyte l.idx).trans BitVec.extractLsb'_eq_self.symm

theorem packetBits_argByte (index : BitVec 6) (arg : BitVec 32) (crc : BitVec 8) (k : Nat)
    (hk : k + 8 ≤ 32 := by decide) :
    arg.extractLsb' k 8 = (packetBits index arg crc).extractLsb' (k + 8) 8 := by
  rw [packetBits_extractLsb' _ _ _ (by omega), Nat.add_sub_cancel, BitVec.extractLsb'_append_eq_of_add_le hk]

/-- Settles O4: each byte is its eight bits of the packet, and side by side they are all of it. -/
theorem packetBytesAreThePacketWord : Obligations.PacketBytesAreThePacketWord := by
  intro l
  have h1 : pktByte l 1 = (packetBits l.idx l.arg l.crc).extractLsb' 32 8 := packetBits_argByte _ _ _ 24
  have h2 : pktByte l 2 = (packetBits l.idx l.arg l.crc).extractLsb' 24 8 := packetBits_argByte _ _ _ 16
  have h3 : pktByte l 3 = (packetBits l.idx l.arg l.crc).extractLsb' 16 8 := packetBits_argByte _ _ _ 8
  have h4 : pktByte l 4 = (packetBits l.idx l.arg l.crc).extractLsb' 8 8 := packetBits_argByte _ _ _ 0
  have h5 : pktByte l 5 = (packetBits l.idx l.arg l.crc).extractLsb' 0 8 := (packetCrc_packetBits _ _ _).symm
  rw [pktByte_zero, h1, h2, h3, h4, h5]
  simp only [BitVec.extractLsb'_append_extractLsb'_eq_extractLsb']
  exact BitVec.extractLsb'_eq_self

end Sys2Proof.Machine
end

section
/-! The transaction SENDCMD (30_encoding.md R118): what a packet row does, and that its one step is its accesses. -/

namespace Sys2Proof.Machine

open Claim

/-! ### A packet's instruction -/

theorem framePacket_idle {s : State} (hb : s.status.busy = false) (index : BitVec 6) (arg : BitVec 32)
    (crc : BitVec 8) : framePacket index arg crc s = waiting (sendCmdStarted (operands index arg crc s)) :=
  congrArg pushWait (issue_idle (s := loadOperands index arg crc s) hb)

theorem framePacket_busy {s : State} (hb : s.status.busy = true) (index : BitVec 6) (arg : BitVec 32)
    (crc : BitVec 8) :
    framePacket index arg crc s = waiting (faulted (operands index arg crc s) .issueBusy 0x000 (some 1#32)) :=
  congrArg pushWait (issue_busy (s := loadOperands index arg crc s) hb)

/-- Settles O14: every packet row is the transaction of its operands, which starts SEND_CMD. -/
theorem commandPacketStartsSendCmd : Obligations.CommandPacketStartsSendCmd := by
  intro s hb
  have hrow := fun index arg crc =>
    congrArg (Host.Outcome.next (φ := Fault) (ρ := Refusal)) (framePacket_idle hb index arg crc)
  exact ⟨hrow, hrow _ _ _, hrow _ _ _, hrow _ _ _, hrow _ _ _, hrow _⟩

/-- Settles O15: the start is refused, the two register writes before it are not, and every row is the generic one. -/
theorem commandPacketWhileBusy : Obligations.CommandPacketWhileBusy := by
  intro s hb
  exact ⟨fun index arg crc => congrArg Host.Outcome.next (framePacket_busy hb index arg crc),
    rfl, rfl, rfl, rfl, fun _ _ => rfl⟩

/-! ### The host's turn on SENDCMD and on WAIT -/

theorem step_sendCmd {s : State} {index : BitVec 6} {arg : BitVec 32} {crc : BitVec 8} {rest : List HostAct}
    (h : HostDoes s (.sendCmd index arg crc) rest) : step s = exec (packetInstr index arg crc) (acted s rest) := by
  obtain ⟨ht, hq⟩ := h
  apply step_host_run ht
  simp only [fetchHost, popSched_env, hq, popHost_popSched hq]

theorem step_wait {s : State} {rest : List HostAct} (h : HostDoes s .wait rest) :
    step s = .next (if s.status.busy then popSched s else acted s rest) := by
  obtain ⟨ht, hq⟩ := h
  apply step_host_moved ht
  simp only [fetchHost, popSched_env, hq, popHost_popSched hq, popSched_status]

/-- Settles O7: the packet decodes to the row of its operands, which is what the turn fetches. -/
theorem stepRunsCommandPacket : Obligations.StepRunsCommandPacket := by
  intro s index arg crc rest h
  exact ⟨_, decode_packetBits index arg crc, packetInstr_wellFormed index arg crc, step_sendCmd h⟩

/-- Settles O40: a WAIT that stays is still the host's oldest act. -/
theorem waitEndsWhenNotBusy : Obligations.WaitEndsWhenNotBusy := by
  intro s rest h
  constructor <;> intro hb
  · have hstays : popSched s = acted s (.wait :: rest) := by rw [acted, ← h.2]; rfl
    rw [step_wait h, if_pos hb, hstays]
  · rw [step_wait h, if_neg (by simp [hb])]

/-! ### The word `(crc << 8) | idx` that SENDCMD writes to CMD -/

theorem cmdOperand_toNat (index : BitVec 6) (crc : BitVec 8) :
    (cmdOperand index crc).toNat = crc.toNat * 256 + index.toNat := by
  have hdisjoint : crc.toNat <<< 8 ||| index.toNat = crc.toNat <<< 8 + index.toNat :=
    (Nat.shiftLeft_add_eq_or_of_lt (by omega) _).symm
  rw [cmdOperand, BitVec.toNat_or, BitVec.toNat_shiftLeft, BitVec.toNat_setWidth_of_le (by decide),
    BitVec.toNat_setWidth_of_le (by decide), Nat.mod_eq_of_lt (by omega), hdisjoint, Nat.shiftLeft_eq]

theorem cmdIndexOf_cmdOperand (index : BitVec 6) (crc : BitVec 8) : cmdIndexOf (cmdOperand index crc) = index := by
  apply BitVec.eq_of_toNat_eq
  rw [cmdIndexOf, BitVec.extractLsb'_toNat, cmdOperand_toNat]
  omega

theorem cmdCrcOf_cmdOperand (index : BitVec 6) (crc : BitVec 8) : cmdCrcOf (cmdOperand index crc) = crc := by
  apply BitVec.eq_of_toNat_eq
  rw [cmdCrcOf, BitVec.extractLsb'_toNat, cmdOperand_toNat]
  omega

theorem cmdReserved_cmdOperand (index : BitVec 6) (crc : BitVec 8) :
    cmdReserved (cmdOperand index crc) = false := by
  have hlow : (cmdOperand index crc).extractLsb' 6 2 = 0#2 := by
    apply BitVec.eq_of_toNat_eq
    rw [BitVec.extractLsb'_toNat, cmdOperand_toNat, BitVec.toNat_ofNat]
    omega
  have hhigh : (cmdOperand index crc).extractLsb' 16 16 = 0#16 := by
    apply BitVec.eq_of_toNat_eq
    rw [BitVec.extractLsb'_toNat, cmdOperand_toNat, BitVec.toNat_ofNat]
    omega
  simp [cmdReserved, hlow, hhigh]

/-! ### SENDCMD by its accesses -/

/-- `s` with these acts pending for the host. -/
def queued (acts : List HostAct) (s : State) : State := { s with env := { s.env with hostQ := acts } }

/-- In IDLE and with no schedule the host does what it has pending. -/
theorem hostDoes_queued {s : State} (hp : s.phase = .idle) (hs : s.env.sched = []) (a : HostAct)
    (rest : List HostAct) : HostDoes (queued (a :: rest) s) a rest :=
  ⟨turn_host_default hs hp (List.cons_ne_nil a rest), rfl⟩

theorem acted_queued {s : State} (hs : s.env.sched = []) (acts rest : List HostAct) :
    acted (queued acts s) rest = queued rest s := by
  simp [acted, queued, hs]

/-- A register's write but CTRL's is done in place. -/
theorem step_asmWR {s : State} {r : Reg} (hr : r ≠ .ctrl) (hp : s.phase = .idle) (hs : s.env.sched = []) (v : Word)
    (rest : List HostAct) :
    step (queued (asmWR r v :: rest) s) = .next (memWrite (regOffset r) 4 v (queued rest s)) := by
  have hctrl : ¬ (regOffset r = 0 ∧ regAccess (regOffset r) 4 = true) := by revert hr; cases r <;> decide
  rw [← acted_queued hs (asmWR r v :: rest) rest]
  exact step_write (hostDoes_queued hp hs _ rest) hctrl

theorem step_writeCmd {s : State} (hp : s.phase = .idle) (hs : s.env.sched = []) (index : BitVec 6) (crc : BitVec 8)
    (rest : List HostAct) :
    step (queued (asmWR .cmd (cmdOperand index crc) :: rest) s) =
      .next (queued rest (operands index s.regs.arg crc s)) := by
  have hpermitted : writeFault (regOffset .cmd) 4 (cmdOperand index crc) = none := by
    simp [writeFault, regAccess, regOffset, cmdReserved_cmdOperand]
  have hwritten : writeReg (regOffset .cmd) (cmdOperand index crc) (queued rest s) =
      queued rest (operands index s.regs.arg crc s) := by
    simp only [writeReg, regOffset, cmdIndexOf_cmdOperand, cmdCrcOf_cmdOperand]
    rfl
  rw [step_asmWR (by decide) hp hs, memWrite, hpermitted, hwritten]

theorem step_writeArg {s : State} (hp : s.phase = .idle) (hs : s.env.sched = []) (arg : BitVec 32)
    (rest : List HostAct) :
    step (queued (asmWR .arg arg :: rest) s) =
      .next (queued rest (operands s.regs.cmdIndex arg s.regs.cmdCrc s)) :=
  step_asmWR (by decide) hp hs arg rest

theorem step_writeCtrl_sendCmd {s : State} (hp : s.phase = .idle) (hs : s.env.sched = []) (rest : List HostAct) :
    step (queued (asmWR .ctrl 1#32 :: rest) s) = .next (issue 1#32 startSendCmd (queued rest s)) := by
  rw [← acted_queued hs (asmWR .ctrl 1#32 :: rest) rest]
  exact stepRunsOperationWord _ 1#32 rest .sendCmd (hostDoes_queued hp hs _ rest) rfl

/-- The three accesses of a SENDCMD leave what the transaction leaves, its WAIT pending in both. -/
theorem run_sendCmd_accesses {s : State} (hp : s.phase = .idle) (hs : s.env.sched = []) (index : BitVec 6)
    (arg : BitVec 32) (crc : BitVec 8) (rest : List HostAct) :
    Host.Core.run core 3 (queued (asmSENDCMD index arg crc ++ rest) s) =
      .next (framePacket index arg crc (queued rest s)) := by
  have hcmd := step_writeCmd hp hs index crc (asmWR .arg arg :: asmWR .ctrl 1#32 :: .wait :: rest)
  have harg := step_writeArg (s := operands index s.regs.arg crc s) hp hs arg (asmWR .ctrl 1#32 :: .wait :: rest)
  have hctrl := step_writeCtrl_sendCmd (s := operands index arg crc s) hp hs (.wait :: rest)
  have hframe : framePacket index arg crc (queued rest s) =
      issue 1#32 startSendCmd (queued (.wait :: rest) (operands index arg crc s)) := by
    rw [framePacket, pushWait_issue_sendCmd]
    rfl
  rw [hframe]
  exact (run_next 2 hcmd).trans ((run_next 1 harg).trans (run_next 0 hctrl))

/-- Settles O16: the two register writes load the operands, and the write to CTRL starts SEND_CMD on them. -/
theorem sendCmdTransactionIsItsExpansion : Obligations.SendCmdTransactionIsItsExpansion := by
  intro s index arg crc rest hp _ hs hq
  have hturn : HostDoes s (.sendCmd index arg crc) rest := ⟨turn_host_default hs hp (by simp [hq]), hq⟩
  have hacted : acted s rest = queued rest s := by simp [acted, queued, hs]
  exact ⟨_, by rw [step_sendCmd hturn, exec_packetInstr, hacted], run_sendCmd_accesses hp hs index arg crc rest⟩

end Sys2Proof.Machine
end

section
/-! The start token ends the hunt, at every poll of it (30_encoding.md R105, 41_block_reader.md R171). -/

namespace Sys2Proof.Machine

theorem blockStep_tokHunt_token {s : State} (hp : s.phase = .tokHunt) :
    blockStep Config.startToken s =
      enter .payload (setCount (s.j + 1#16) (xchg Config.tokenPollTx true Config.startToken s)) := by
  simp only [blockStep, hp, huntStep, isToken, beq_self_eq_true, if_true]

/-- Settles O31. -/
theorem startTokenEndsTheHunt : Obligations.StartTokenEndsTheHunt := by
  intro s hp
  exact congrArg Host.Outcome.next (blockStep_tokHunt_token hp)

end Sys2Proof.Machine
end

section
/-! Exchanges in the block's turns, one and several: what they leave of the bus, the history and the agents (20_memory.md R75,
10_state.md R49), whatever the operation. -/

namespace Sys2Proof.Machine

open Claim

/-! ### One exchange -/

/-- What `k` exchanges in the block's turns leave of the agents: the schedule and the card's bytes are used up. -/
def envAfter (e : Env) (k : Nat) : Env :=
  { e with sched := e.sched.drop k, miso := e.miso.drop k, cardDraws := e.cardDraws + (k - e.miso.length) }

theorem dropRx_popSched (s : State) : dropRx (popSched s) = { s with env := envAfter s.env 1 } := by
  unfold dropRx
  cases hm : s.env.miso <;> simp [popSched, envAfter, hm]

/-- `exchanged` as a record update of `s` alone, so that its fields are read off. -/
theorem exchanged_eq (s : State) (tx : Byte) (cs : Bool) :
    exchanged s tx cs =
      { s with env := envAfter s.env 1, history := s.history ++ [⟨tx, nextRx s, cs⟩], mosi := tx, csN := !cs } := by
  rw [exchanged, dropRx_popSched]

theorem xchg_turn (s : State) (tx : Byte) (cs : Bool) :
    xchg tx cs (nextRx s) (dropRx (popSched s)) = exchanged s tx cs := by
  rw [exchanged_eq, dropRx_popSched]
  simp only [xchg, Config.csGapHeld, Bool.and_true]

/-! ### Several exchanges -/

/-- `s` after `k` exchanges in the block's turns, the `i`-th of which sends `tx i`: the bus, the history and the agents moved
on, and every other piece as it was. -/
def afterExchanges (s : State) (tx : Nat → Byte) (cs : Bool) (k : Nat) : State :=
  { s with
    env := envAfter s.env k
    history := s.history ++ trace s tx cs k
    mosi := if k = 0 then s.mosi else tx (k - 1)
    csN := if k = 0 then s.csN else !cs }

theorem envAfter_envAfter (e : Env) (k m : Nat) : envAfter (envAfter e k) m = envAfter e (k + m) := by
  have hdraws : k - e.miso.length + (m - (e.miso.length - k)) = k + m - e.miso.length := by omega
  simp [envAfter, List.drop_drop, Nat.add_assoc, hdraws]

theorem rxAt_afterExchanges (s : State) (tx : Nat → Byte) (cs : Bool) (k i : Nat) :
    rxAt (afterExchanges s tx cs k) i = rxAt s (k + i) := by
  have hmiso : (afterExchanges s tx cs k).env.miso = s.env.miso.drop k := rfl
  have hdraws : (afterExchanges s tx cs k).env.cardDraws = s.env.cardDraws + (k - s.env.miso.length) := rfl
  simp only [rxAt, hmiso, hdraws, List.getElem?_drop, List.length_drop]
  cases hb : s.env.miso[k + i]? with
  | some b => rfl
  | none =>
    have hpast : s.env.miso.length ≤ k + i := List.getElem?_eq_none_iff.mp hb
    have hcount : k - s.env.miso.length + (i - (s.env.miso.length - k)) = k + i - s.env.miso.length := by omega
    simp only [Nat.add_assoc, hcount]

theorem nextRx_afterExchanges (s : State) (tx : Nat → Byte) (cs : Bool) (k : Nat) :
    nextRx (afterExchanges s tx cs k) = rxAt s k := by
  rw [← rxAt_zero, rxAt_afterExchanges, Nat.add_zero]

theorem trace_succ (s : State) (tx : Nat → Byte) (cs : Bool) (k : Nat) :
    trace s tx cs (k + 1) = trace s tx cs k ++ [⟨tx k, rxAt s k, cs⟩] := by
  simp [trace, List.range_succ]

theorem afterExchanges_zero (s : State) (tx : Nat → Byte) (cs : Bool) : afterExchanges s tx cs 0 = s := by
  simp [afterExchanges, envAfter, trace]

theorem exchanged_afterExchanges (s : State) (tx : Nat → Byte) (cs : Bool) (k : Nat) :
    exchanged (afterExchanges s tx cs k) (tx k) cs = afterExchanges s tx cs (k + 1) := by
  rw [exchanged_eq, nextRx_afterExchanges]
  simp [afterExchanges, envAfter_envAfter, trace_succ]

theorem turn_afterExchanges {s : State} (hs : s.env.sched = []) (hp : s.phase ≠ .idle) (tx : Nat → Byte) (cs : Bool)
    (k : Nat) : turn (afterExchanges s tx cs k) = .block :=
  turn_block_default (by simp [afterExchanges, envAfter, hs]) hp

theorem run_succ {s t u : State} {k : Nat} (hrun : Host.Core.run core k s = .next t) (hstep : step t = .next u) :
    Host.Core.run core (k + 1) s = .next u :=
  (run_add k 1 hrun).trans (run_next 0 hstep)

end Sys2Proof.Machine
end

section
/-! The operations' starts, and the three phases of SEND_CMD one exchange at a time (40_command_framer.md R141 to R145). -/

namespace Sys2Proof.Machine

open Claim

/-! ### Starts -/

/-- Settles O11: with BUSY = 0 nothing is refused, and a CLOCK of some bytes does not complete at its start. -/
theorem operationsStart : Obligations.OperationsStart := by
  intro s hb
  refine ⟨congrArg Host.Outcome.next (issue_idle hb), congrArg Host.Outcome.next (issue_idle hb), fun hn => ?_⟩
  have hstart : startClock s = begin .clk { s with latch := { s.latch with n := s.regs.clkN, cs := s.regs.clkCs } } :=
    if_neg hn
  exact congrArg Host.Outcome.next ((issue_idle hb).trans hstart)

/-! ### The phases -/

theorem blockStep_cmdPrime {s : State} (hp : s.phase = .cmdPrime) (rx : Byte) : blockStep rx s = primeStep rx s := by
  simp only [blockStep, hp]

theorem blockStep_cmdPkt {s : State} (hp : s.phase = .cmdPkt) (rx : Byte) : blockStep rx s = pktStep rx s := by
  simp only [blockStep, hp]

theorem blockStep_cmdPoll {s : State} (hp : s.phase = .cmdPoll) (rx : Byte) : blockStep rx s = pollStep rx s := by
  simp only [blockStep, hp]

theorem r1Valid_iff (b : Byte) : r1Valid b = true ↔ b.getLsbD 7 = false := by
  simp [r1Valid]

/-- The counter as a number of exchanges. -/
theorem ofNat_succ_of_toNat {j : BitVec 16} {i : Nat} (h : j.toNat = i) : BitVec.ofNat 16 (i + 1) = j + 1#16 := by
  rw [← h, BitVec.ofNat_add, BitVec.ofNat_toNat, BitVec.setWidth_eq]

/-- Settles O17: the phase is one exchange and the change of phase, and looks at nothing received. -/
theorem primingByteIsSentFirst : Obligations.PrimingByteIsSentFirst := by
  intro s ht hp
  rw [step_block ht (by simp [hp]), blockStep_cmdPrime (by simpa using hp), primeStep, xchg_turn]
  rfl

/-- Settles O18: the byte sent is that of the counter, which the last of the six finds at 5. -/
theorem packetByteIsSent : Obligations.PacketByteIsSent := by
  intro s i ht hp hj hi
  rw [step_block ht (by simp [hp]), blockStep_cmdPkt (by simpa using hp), pktStep, xchg_turn, dropRx_latch,
    dropRx_j, popSched_latch, popSched_j, hj, exchanged_eq, ofNat_succ_of_toNat hj]
  have hmore : i + 1 < Config.cmdLen ↔ i < 5 := Nat.succ_lt_succ_iff
  simp only [hmore]
  split_ifs <;> rfl

/-- Settles O19: the three outcomes are the three branches of the poll. -/
theorem pollTakesTheFirstValidByte : Obligations.PollTakesTheFirstValidByte := by
  intro s n ht hp hn hlimit
  refine ⟨s.j, ?_⟩
  subst hn
  rw [step_block ht (by simp [hp]), blockStep_cmdPoll (by simpa using hp), pollStep, xchg_turn, dropRx_j,
    popSched_j, exchanged_eq, ofNat_succ_of_toNat rfl]
  simp only [r1Valid_iff, Config.r1PollLimit]
  split_ifs with hvalid hmore
  · rfl
  · rfl
  · have hlast : 10#16 = s.j + 1#16 := by bv_omega
    rw [hlast]; rfl

end Sys2Proof.Machine
end

section
/-! What a byte of the card does and what it leaves unchanged, as an instruction in any phase (log 9). -/

namespace Sys2Proof.Machine

theorem r1Valid_r1 (st : BitVec 7) : r1Valid (0#1 ++ st) = true := by
  rw [r1Valid_iff, BitVec.getLsbD_append]
  rfl

/-- Settles O30: an R1 byte is valid whatever its status, so the poll that receives it is the last. -/
theorem r1ByteCompletesSendCmd : Obligations.R1ByteCompletesSendCmd := by
  intro s st hp
  have hpoll : blockStep (0#1 ++ st) s = pollStep (0#1 ++ st) s := blockStep_cmdPoll hp _
  rw [pollStep, r1Valid_r1] at hpoll
  exact congrArg Host.Outcome.next hpoll

theorem BlockMove.regs_eq {rx : Byte} {s t : State} (h : BlockMove rx s t) : t.regs = s.regs := by
  cases h <;> rfl

theorem BlockMove.faults_eq {rx : Byte} {s t : State} (h : BlockMove rx s t) : t.faults = s.faults := by
  cases h <;> rfl

theorem BlockMove.respW_eq {rx : Byte} {s t : State} (h : BlockMove rx s t) (hn : s.phase ≠ .cmdPoll) :
    t.respW = s.respW := by
  cases h with
  | response hp _ => exact absurd hp hn
  | noResponse hp _ _ => exact absurd hp hn
  | _ => rfl

theorem BlockMove.dataW_eq {rx : Byte} {s t : State} (h : BlockMove rx s t) (hn : s.phase ≠ .payload) :
    t.dataW = s.dataW := by
  cases h with
  | blockEnd hp _ _ => exact absurd hp hn
  | _ => rfl

/-- An exchange writes no byte of DATA but the payload's own (41_block_reader.md R174, R175). -/
theorem BlockMove.read_eq {rx : Byte} {s t : State} (h : BlockMove rx s t) (hw : Memory.wf s.data = true) {a : Nat}
    (ha : a ≠ 0x200 + s.j.toNat ∨ 512 ≤ s.j.toNat) : Memory.read t.data a = Memory.read s.data a := by
  cases h with
  | store _ hj =>
    simp only [Memory.wf, Bool.and_eq_true] at hw
    obtain ⟨hsorted, _⟩ := hw
    exact (Memory.read_write _ _ _ _ _ hsorted).trans (if_neg (ha.resolve_right (by omega)))
  | _ => rfl

/-- Settles O32: a byte of the card is put back in IDLE, and in every other phase it is one exchange. -/
theorem cardByteFrame : Obligations.CardByteFrame := by
  intro s t i b hi h
  have hstep : exec i s = .next (blockStep b s) := by
    obtain ⟨st, rfl, rfl⟩ | ⟨rfl, rfl⟩ := hi <;> rfl
  cases h.symm.trans hstep
  by_cases hp : s.phase = .idle
  · rw [blockStep_idle hp]
    exact ⟨rfl, rfl, rfl, fun _ => rfl, fun hn => absurd hp hn, fun _ => ⟨rfl, rfl⟩, fun _ => ⟨rfl, rfl⟩,
      fun _ _ _ _ => rfl⟩
  · have hm := blockStep_blockMove b hp
    exact ⟨hm.regs_eq, hm.latch_eq, hm.faults_eq, fun hidle => absurd hidle hp,
      fun _ => ⟨hm.env_eq, _, hm.history_eq, rfl⟩, fun hn => ⟨hm.respR1_eq hn, hm.respW_eq hn⟩,
      fun hn => ⟨hm.data_eq fun ⟨hpayload, _⟩ => hn hpayload, hm.dataW_eq hn⟩, fun _ hw _ ha => hm.read_eq hw ha⟩

end Sys2Proof.Machine
end

section
/-! The whole of a SEND_CMD with the block left to itself: its 7 + n exchanges (30_encoding.md R107, 40_command_framer.md R140
to R146). -/

namespace Sys2Proof.Machine

open Claim

/-! ### The bytes of the frame (30_encoding.md R107) -/

/-- After the priming byte come the bytes of the latched packet. -/
theorem sendCmdTx_packet (s : State) {i : Nat} (hi : i ≤ 5) :
    sendCmdTx s.regs (i + 1) = pktByte (sendCmdStarted s).latch i := by
  interval_cases i <;> rfl

theorem sendCmdTx_poll (r : HostRegs) {k : Nat} (hk : 7 ≤ k) : sendCmdTx r k = 0xFF#8 := by
  have hpast : k ≠ 1 ∧ k ≠ 2 ∧ k ≠ 3 ∧ k ≠ 4 ∧ k ≠ 5 ∧ k ≠ 6 := by omega
  simp [sendCmdTx, hpast]

/-! ### From phase to phase -/

/-- `s` with SEND_CMD started and in phase CMD_PKT(i), the exchanges so far left out. -/
def packetPhase (s : State) (i : Nat) : State := { sendCmdStarted s with phase := .cmdPkt, j := BitVec.ofNat 16 i }

/-- `s` with SEND_CMD started and in phase CMD_POLL(n), the exchanges so far left out; RESP.R1 is `b`. -/
def pollPhase (s : State) (n : Nat) (b : Byte) : State :=
  { sendCmdStarted s with
    phase := .cmdPoll, j := BitVec.ofNat 16 (n - 1), respR1 := b
    status := { busy := true, result := .none, count := BitVec.ofNat 16 (n - 1) } }

/-- `s` with SEND_CMD completed by poll `n`, the exchanges left out but for the byte received last. -/
def sendCmdEnded (s : State) (n : Nat) (r : Result) (j : BitVec 16) : State :=
  { sendCmdStarted s with
    phase := .idle, j := j, respR1 := rxAt s (6 + n), respW := true
    status := { busy := false, result := r, count := BitVec.ofNat 16 n } }

section
variable {s : State} (hs : s.env.sched = [])
include hs

theorem step_prime :
    step (sendCmdStarted s) = .next (afterExchanges (packetPhase s 0) (sendCmdTx s.regs) true 1) := by
  have hturn : turn (sendCmdStarted s) = .block := turn_block_default hs (by simp [sendCmdStarted])
  have hsent : exchanged (sendCmdStarted s) 0xFF#8 true =
      afterExchanges (sendCmdStarted s) (sendCmdTx s.regs) true 1 := by
    rw [← exchanged_afterExchanges, afterExchanges_zero]
    rfl
  rw [primingByteIsSentFirst _ hturn rfl, hsent]
  rfl

theorem step_packet {i : Nat} (hi : i ≤ 5) :
    step (afterExchanges (packetPhase s i) (sendCmdTx s.regs) true (i + 1)) =
      .next (afterExchanges (if i < 5 then packetPhase s (i + 1) else pollPhase s 1 s.respR1) (sendCmdTx s.regs) true
        (i + 2)) := by
  have hturn := turn_afterExchanges (s := packetPhase s i) hs (by simp [packetPhase]) (sendCmdTx s.regs) true (i + 1)
  have hj : (BitVec.ofNat 16 i).toNat = i := by rw [BitVec.toNat_ofNat]; omega
  have hsent := exchanged_afterExchanges (packetPhase s i) (sendCmdTx s.regs) true (i + 1)
  rw [sendCmdTx_packet s hi] at hsent
  refine (packetByteIsSent _ i hturn rfl hj hi).trans ?_
  split_ifs
  · exact congrArg (fun t => Host.Outcome.next { t with j := BitVec.ofNat 16 (i + 1) }) hsent
  · exact congrArg (fun t => Host.Outcome.next { t with phase := .cmdPoll, j := 0#16 }) hsent

theorem run_packet {i : Nat} (hi : i ≤ 5) :
    Host.Core.run core (i + 1) (sendCmdStarted s) =
      .next (afterExchanges (packetPhase s i) (sendCmdTx s.regs) true (i + 1)) := by
  induction i with
  | zero => exact run_next 0 (step_prime hs)
  | succ i ih =>
    have hstep := step_packet hs (i := i) (by omega)
    rw [if_pos (by omega)] at hstep
    exact run_succ (ih (by omega)) hstep

theorem step_poll {n : Nat} (h1 : 1 ≤ n) (hn : n ≤ 10) (b : Byte) :
    ∃ j, step (afterExchanges (pollPhase s n b) (sendCmdTx s.regs) true (6 + n)) = .next
      (if (rxAt s (6 + n)).getLsbD 7 = false then
        { afterExchanges (sendCmdEnded s n .cmdResp j) (sendCmdTx s.regs) true (6 + n + 1) with csN := true }
       else if n < 10 then
        afterExchanges (pollPhase s (n + 1) (rxAt s (6 + n))) (sendCmdTx s.regs) true (6 + n + 1)
       else
        { afterExchanges (sendCmdEnded s 10 .cmdNoResp j) (sendCmdTx s.regs) true (6 + n + 1) with csN := true }) := by
  have hturn := turn_afterExchanges (s := pollPhase s n b) hs (by simp [pollPhase]) (sendCmdTx s.regs) true (6 + n)
  have hj : (BitVec.ofNat 16 (n - 1)).toNat + 1 = n := by rw [BitVec.toNat_ofNat]; omega
  have hrx : nextRx (afterExchanges (pollPhase s n b) (sendCmdTx s.regs) true (6 + n)) = rxAt s (6 + n) :=
    nextRx_afterExchanges _ _ _ _
  have hsent := exchanged_afterExchanges (pollPhase s n b) (sendCmdTx s.regs) true (6 + n)
  rw [sendCmdTx_poll _ (by omega)] at hsent
  obtain ⟨j, hstep⟩ := pollTakesTheFirstValidByte _ n hturn rfl hj hn
  rw [hrx, hsent] at hstep
  refine ⟨j, hstep.trans ?_⟩
  split_ifs with hvalid hmore
  · rfl
  · rfl
  · obtain rfl : n = 10 := by omega
    rfl

/-- Up to CMD_POLL(n), if no poll before received a byte with bit 7 = 0. -/
theorem run_polls {n : Nat} (h1 : 1 ≤ n) (hn : n ≤ 10)
    (hmiss : ∀ m, 1 ≤ m → m < n → (rxAt s (6 + m)).getLsbD 7 = true) :
    ∃ b, Host.Core.run core (6 + n) (sendCmdStarted s) =
      .next (afterExchanges (pollPhase s n b) (sendCmdTx s.regs) true (6 + n)) := by
  induction n, h1 using Nat.le_induction with
  | base => exact ⟨s.respR1, run_succ (run_packet hs (le_refl 5)) (step_packet hs (le_refl 5))⟩
  | succ n h1 ih =>
    obtain ⟨b, hrun⟩ := ih (by omega) fun m hm hlt => hmiss m hm (by omega)
    obtain ⟨j, hstep⟩ := step_poll hs h1 (by omega) b
    rw [if_neg (by simp [hmiss n h1 (by omega)]), if_pos (by omega)] at hstep
    exact ⟨_, run_succ hrun hstep⟩

end

/-! ### The statements -/

/-- Settles O20: the priming byte, the packet and the polls before the `n`-th by induction, and the `n`-th completes. -/
theorem sendCmdReportsTheFirstValidPoll : Obligations.SendCmdReportsTheFirstValidPoll := by
  intro s t n hb hs hstart h1 hn hmiss hvalid
  cases hstart.symm.trans (operationsStart s hb).1
  obtain ⟨b, hrun⟩ := run_polls hs h1 hn hmiss
  obtain ⟨j, hstep⟩ := step_poll hs h1 hn b
  rw [if_pos hvalid] at hstep
  have hk : 7 + n = 6 + n + 1 := by omega
  rw [hk]
  exact ⟨_, run_succ hrun hstep, rfl, rfl, rfl, rfl, rfl, rfl, rfl, rfl, rfl, rfl, rfl, rfl, rfl⟩

/-- Settles O21: no poll before the tenth completes, and the tenth ends the loop. -/
theorem sendCmdWithoutResponse : Obligations.SendCmdWithoutResponse := by
  intro s t hb hs hstart hmiss
  cases hstart.symm.trans (operationsStart s hb).1
  obtain ⟨b, hrun⟩ := run_polls hs (n := 10) (by decide) (le_refl 10) fun m hm hlt => hmiss m hm (by omega)
  obtain ⟨j, hstep⟩ := step_poll hs (n := 10) (by decide) (le_refl 10) b
  rw [if_neg (by simp [hmiss 10 (by decide) (le_refl 10)]), if_neg (by decide)] at hstep
  exact ⟨_, run_succ hrun hstep, rfl, rfl, rfl, rfl, rfl, rfl, rfl, rfl, rfl, rfl, rfl, rfl, rfl⟩

end Sys2Proof.Machine
end

section
/-! The start of READ_BLOCK and its two phases one exchange at a time (41_block_reader.md R171 to R176). -/

namespace Sys2Proof.Machine

open Claim

theorem blockStep_tokHunt {s : State} (hp : s.phase = .tokHunt) (rx : Byte) : blockStep rx s = huntStep rx s := by
  simp only [blockStep, hp]

theorem blockStep_payload {s : State} (hp : s.phase = .payload) (rx : Byte) : blockStep rx s = payloadStep rx s := by
  simp only [blockStep, hp]

theorem isToken_iff (b : Byte) : isToken b = true ↔ b = 0xFE#8 :=
  beq_iff_eq

theorem exec_readBlock_idle {s : State} (hb : s.status.busy = false) : exec .readBlock s = .next (startReadBlock s) :=
  congrArg Host.Outcome.next (issue_idle hb)

/-- The exchange of PAYLOAD(k) in the block's turn: a byte stored, the first trailer byte, or the last (R174 to R176). -/
theorem step_payload {s : State} (ht : turn s = .block) (hp : s.phase = .payload) :
    step s = .next
      (if s.j.toNat < 512 then advance (storePayload s.j.toNat (nextRx s) (exchanged s Config.fillTx true))
       else if s.j.toNat + 1 < 514 then advance (exchanged s Config.fillTx true)
       else finishBlock (exchanged s Config.fillTx true)) := by
  rw [step_block ht (by simp [hp]), blockStep_payload (by simpa using hp), payloadStep, xchg_turn, dropRx_j, popSched_j]
  rfl

/-- Settles O22: the start, and the three branches of the hunt. -/
theorem huntEndsAtTheToken : Obligations.HuntEndsAtTheToken := by
  refine ⟨fun s hb => ⟨s.csN, exec_readBlock_idle hb⟩, fun s n ht hp hn hlimit => ⟨s.j, ?_⟩⟩
  subst hn
  rw [step_block ht (by simp [hp]), blockStep_tokHunt (by simpa using hp), huntStep, xchg_turn, dropRx_j,
    popSched_j, exchanged_eq, ofNat_succ_of_toNat rfl]
  simp only [isToken_iff, Config.tokenPollLimit]
  split_ifs with htoken hmore
  · rfl
  · rfl
  · have hlast : 1000#16 = s.j + 1#16 := by bv_omega
    rw [hlast]; rfl

/-- What a payload byte's exchange leaves, with the store written out. -/
theorem step_store {s : State} {k : Nat} (ht : turn s = .block) (hp : s.phase = .payload) (hj : s.j.toNat = k)
    (hk : k < 512) :
    step s = .next { exchanged s Config.fillTx true with
      j := BitVec.ofNat 16 (k + 1), data := Memory.write s.data (0x200 + k) (nextRx s) } := by
  rw [step_payload ht hp, hj, if_pos hk, exchanged_eq, ofNat_succ_of_toNat hj]
  rfl

/-- Settles O23: the store's address is the counter's, and a store changes what that address reads and no other. -/
theorem payloadByteIsStored : Obligations.PayloadByteIsStored := by
  intro s k ht hp hj hk hw
  refine ⟨_, step_store ht hp hj (by omega), fun a => ?_⟩
  simp only [Memory.wf, Bool.and_eq_true] at hw
  obtain ⟨hsorted, _⟩ := hw
  exact Memory.read_write _ _ _ _ _ hsorted

/-- Settles O24: neither exchange is one of the first 512, and only the second is the last. -/
theorem trailerIsDiscarded : Obligations.TrailerIsDiscarded := by
  intro s ht hp
  refine ⟨fun hj => ?_, fun hj => ⟨513#16, ?_⟩⟩
  · rw [step_payload ht hp, hj, if_neg (by decide), if_pos (by decide), exchanged_eq, hj]
    rfl
  · rw [step_payload ht hp, hj, if_neg (by decide), if_neg (by decide), exchanged_eq, hj]
    rfl

end Sys2Proof.Machine
end

section
/-! The whole of a READ_BLOCK with the block left to itself: its hunt, its payload and its trailer (30_encoding.md R108,
41_block_reader.md R171 to R178). -/

namespace Sys2Proof.Machine

open Claim

/-! ### DATA as the payload fills it -/

/-- DATA `m` after `k` payload bytes, the `i`-th of which is `rx i` (20_memory.md R78). -/
def storedPayload (m : List Host.Cell) (rx : Nat → Byte) : Nat → List Host.Cell
  | 0 => m
  | k + 1 => Memory.write (storedPayload m rx k) (0x200 + k) (rx k)

theorem storedPayload_wf {m : List Host.Cell} (hm : Memory.wf m = true) (rx : Nat → Byte) {k : Nat} (hk : k ≤ 512) :
    Memory.wf (storedPayload m rx k) = true := by
  induction k with
  | zero => exact hm
  | succ k ih =>
    exact Memory.write_wf _ _ _ (Nat.le_add_right _ _) (by simp only [Config.windowSize]; omega) (ih (by omega))

theorem read_storedPayload {m : List Host.Cell} (hm : Memory.wf m = true) (rx : Nat → Byte) {k i : Nat} (hk : k ≤ 512)
    (hi : i < k) : Memory.read (storedPayload m rx k) (0x200 + i) = rx i := by
  induction k with
  | zero => omega
  | succ k ih =>
    have hw := storedPayload_wf hm rx (k := k) (by omega)
    simp only [Memory.wf, Bool.and_eq_true] at hw
    obtain ⟨hsorted, _⟩ := hw
    rw [storedPayload, Memory.read_write _ _ _ _ _ hsorted]
    split_ifs with hlast
    · rw [show i = k by omega]
    · exact ih (by omega) (by omega)

/-! ### From phase to phase -/

/-- The byte sent in every exchange of a READ_BLOCK (30_encoding.md R108; log 16). -/
def readBlockTx (_ : Nat) : Byte := 0xFF#8

theorem exchanged_readBlockTx (u : State) (k : Nat) :
    exchanged (afterExchanges u readBlockTx true k) 0xFF#8 true = afterExchanges u readBlockTx true (k + 1) :=
  exchanged_afterExchanges u readBlockTx true k

/-- `s` with READ_BLOCK started and `m` hunt polls made, so in phase TOK_HUNT(m + 1); the exchanges left out. -/
def huntPhase (s : State) (m : Nat) : State :=
  { s with
    phase := .tokHunt, j := BitVec.ofNat 16 m
    status := { busy := true, result := .none, count := BitVec.ofNat 16 m } }

/-- `s` with READ_BLOCK in phase PAYLOAD(k) after a token at poll `n`, DATA holding `d`; the exchanges left out. -/
def payloadPhase (s : State) (n k : Nat) (d : List Host.Cell) : State :=
  { s with
    phase := .payload, j := BitVec.ofNat 16 k, data := d
    status := { busy := true, result := .none, count := BitVec.ofNat 16 n } }

/-- `s` with READ_BLOCK completed after `n` hunt polls; the exchanges, DATA and DATA_W left out. -/
def readBlockEnded (s : State) (n : Nat) (r : Result) (j : BitVec 16) : State :=
  { s with phase := .idle, j := j, status := { busy := false, result := r, count := BitVec.ofNat 16 n } }

section
variable {s : State} (hs : s.env.sched = [])
include hs

theorem step_huntPhase {m : Nat} (hm : m < 1000) :
    ∃ j, step (afterExchanges (huntPhase s m) readBlockTx true m) = .next
      (if rxAt s m = 0xFE#8 then afterExchanges (payloadPhase s (m + 1) 0 s.data) readBlockTx true (m + 1)
       else if m + 1 < 1000 then afterExchanges (huntPhase s (m + 1)) readBlockTx true (m + 1)
       else { afterExchanges (readBlockEnded s 1000 .blkNoToken j) readBlockTx true (m + 1) with csN := true }) := by
  have hturn := turn_afterExchanges (s := huntPhase s m) hs (by simp [huntPhase]) readBlockTx true m
  have hj : (BitVec.ofNat 16 m).toNat + 1 = m + 1 := by rw [BitVec.toNat_ofNat]; omega
  obtain ⟨j, hstep⟩ := huntEndsAtTheToken.2 _ (m + 1) hturn rfl hj (by omega)
  rw [nextRx_afterExchanges, exchanged_readBlockTx] at hstep
  exact ⟨j, hstep⟩

/-- Up to TOK_HUNT(m + 1), if no poll before received the token. -/
theorem run_hunt {m : Nat} (hm : m < 1000) (hmiss : ∀ i, i < m → rxAt s i ≠ 0xFE#8) :
    Host.Core.run core m (startReadBlock s) = .next (afterExchanges (huntPhase s m) readBlockTx true m) := by
  induction m with
  | zero => rw [afterExchanges_zero]; rfl
  | succ m ih =>
    obtain ⟨j, hstep⟩ := step_huntPhase hs (m := m) (by omega)
    rw [if_neg (hmiss m (by omega)), if_pos hm] at hstep
    exact run_succ (ih (by omega) fun i hi => hmiss i (by omega)) hstep

theorem step_payloadPhase {n k : Nat} (hk : k < 512) (d : List Host.Cell) :
    step (afterExchanges (payloadPhase s n k d) readBlockTx true (n + k)) = .next
      (afterExchanges (payloadPhase s n (k + 1) (Memory.write d (0x200 + k) (rxAt s (n + k)))) readBlockTx true
        (n + k + 1)) := by
  have hturn := turn_afterExchanges (s := payloadPhase s n k d) hs (by simp [payloadPhase]) readBlockTx true (n + k)
  have hj : (BitVec.ofNat 16 k).toNat = k := by rw [BitVec.toNat_ofNat]; omega
  have hstep := step_store hturn rfl hj hk
  rw [nextRx_afterExchanges, exchanged_readBlockTx] at hstep
  exact hstep

/-- From the token at exchange `n` up to PAYLOAD(k). -/
theorem run_payload {n k : Nat} (hk : k ≤ 512) :
    Host.Core.run core k (afterExchanges (payloadPhase s n 0 s.data) readBlockTx true n) =
      .next (afterExchanges (payloadPhase s n k (storedPayload s.data (fun i => rxAt s (n + i)) k)) readBlockTx true
        (n + k)) := by
  induction k with
  | zero => rfl
  | succ k ih => exact run_succ (ih (by omega)) (step_payloadPhase hs (by omega) _)

theorem step_trailer (n k : Nat) (d : List Host.Cell) :
    step (afterExchanges (payloadPhase s n 512 d) readBlockTx true k) =
      .next (afterExchanges (payloadPhase s n 513 d) readBlockTx true (k + 1)) := by
  have hturn := turn_afterExchanges (s := payloadPhase s n 512 d) hs (by simp [payloadPhase]) readBlockTx true k
  have hstep := (trailerIsDiscarded _ hturn rfl).1 rfl
  rw [exchanged_readBlockTx] at hstep
  exact hstep

theorem step_trailerEnd (n k : Nat) (d : List Host.Cell) :
    ∃ j, step (afterExchanges (payloadPhase s n 513 d) readBlockTx true k) =
      .next { afterExchanges (readBlockEnded s n .blkOk j) readBlockTx true (k + 1) with
        data := d, dataW := true, csN := true } := by
  have hturn := turn_afterExchanges (s := payloadPhase s n 513 d) hs (by simp [payloadPhase]) readBlockTx true k
  obtain ⟨j, hstep⟩ := (trailerIsDiscarded _ hturn rfl).2 rfl
  rw [exchanged_readBlockTx] at hstep
  exact ⟨j, hstep⟩

/-- From the token at exchange `n` through the payload and the trailer. -/
theorem run_block (hw : Memory.wf s.data = true) (n : Nat) :
    ∃ j d, (∀ k, k < 512 → Memory.read d (0x200 + k) = rxAt s (n + k)) ∧
      Host.Core.run core 514 (afterExchanges (payloadPhase s n 0 s.data) readBlockTx true n) =
        .next { afterExchanges (readBlockEnded s n .blkOk j) readBlockTx true (n + 514) with
          data := d, dataW := true, csN := true } := by
  obtain ⟨j, hend⟩ := step_trailerEnd hs n (n + 513) (storedPayload s.data (fun i => rxAt s (n + i)) 512)
  exact ⟨j, _, fun k hk => read_storedPayload hw (fun i => rxAt s (n + i)) (le_refl 512) hk,
    run_succ (run_succ (run_payload hs (le_refl 512)) (step_trailer hs n (n + 512) _)) hend⟩

end

/-! ### The statements -/

/-- Settles O25: the polls before the `n`-th by induction, the `n`-th receives the token, and the block follows. -/
theorem readBlockStoresThePayload : Obligations.ReadBlockStoresThePayload := by
  intro s t n hb hs hw hstart h1 hn hmiss htoken
  cases hstart.symm.trans (exec_readBlock_idle hb)
  obtain ⟨m, rfl⟩ := Nat.exists_eq_add_of_le' h1
  have hhunt := run_hunt hs (m := m) (by omega) fun i hi => hmiss (i + 1) (by omega) (by omega)
  obtain ⟨_, hstep⟩ := step_huntPhase hs (m := m) (by omega)
  rw [Nat.add_sub_cancel] at htoken
  rw [if_pos htoken] at hstep
  obtain ⟨j, d, hdata, hblock⟩ := run_block hs hw (m + 1)
  exact ⟨_, (run_add _ 514 (run_succ hhunt hstep)).trans hblock, rfl, rfl, rfl, hdata, rfl, rfl, rfl, rfl, rfl, rfl,
    rfl, rfl, rfl, rfl⟩

/-- Settles O26: no poll before the thousandth ends the hunt, and the thousandth gives up. -/
theorem readBlockWithoutToken : Obligations.ReadBlockWithoutToken := by
  intro s t hb hs hstart hmiss
  cases hstart.symm.trans (exec_readBlock_idle hb)
  have hhunt := run_hunt hs (m := 999) (by decide) fun i hi => hmiss i (by omega)
  obtain ⟨j, hstep⟩ := step_huntPhase hs (m := 999) (by decide)
  rw [if_neg (hmiss 999 (by decide)), if_neg (by decide)] at hstep
  exact ⟨_, run_succ hhunt hstep, rfl, rfl, rfl, rfl, rfl, rfl, rfl, rfl, rfl, rfl, rfl, rfl, rfl, rfl⟩

end Sys2Proof.Machine
end

section
/-! NOP and CLOCK (42_bus_clock_and_access.md R200 to R202): their starts, the exchange of CLK(c), and the whole of a
CLOCK with the block left to itself. -/

namespace Sys2Proof.Machine

open Claim

/-! ### Starts -/

/-- Settles O10: NOP's start effect is none, and the check of BUSY is every operation's. -/
theorem nopDoesNothing : Obligations.NopDoesNothing :=
  ⟨rfl, fun _ => ⟨fun hb => congrArg Host.Outcome.next (issue_idle hb),
    fun hb => congrArg Host.Outcome.next (issue_busy hb)⟩⟩

theorem exec_clock_idle {s : State} (hb : s.status.busy = false) : exec .clock s = .next (startClock s) :=
  congrArg Host.Outcome.next (issue_idle hb)

/-- Settles O12: the start of a CLOCK of no bytes is begun and completed in one. -/
theorem clockOfNoBytesCompletesAtOnce : Obligations.ClockOfNoBytesCompletesAtOnce := by
  intro s hb hn
  refine ⟨0#16, ?_⟩
  rw [exec_clock_idle hb, startClock, if_pos hn, hn]
  rfl

/-! ### The phase -/

theorem blockStep_clk {s : State} (hp : s.phase = .clk) (rx : Byte) : blockStep rx s = clkStep rx s := by
  simp only [blockStep, hp]

/-- Settles O27: the byte is one exchange and its count, and the L_N-th of them completes. -/
theorem clockByteIsSent : Obligations.ClockByteIsSent := by
  intro s c ht hp hc hlimit
  subst hc
  rw [step_block ht (by simp [hp]), blockStep_clk (by simpa using hp), clkStep, dropRx_latch, popSched_latch, xchg_turn,
    dropRx_j, popSched_j, exchanged_eq, ofNat_succ_of_toNat rfl]
  split_ifs with hmore
  · rfl
  · have hlast : s.latch.n = s.j + 1#16 := by bv_omega
    rw [hlast]; rfl

/-! ### From byte to byte -/

/-- The byte sent in every exchange of a CLOCK (30_encoding.md R109; log 16). -/
def clockTx (_ : Nat) : Byte := 0xFF#8

theorem exchanged_clockTx (u : State) (cs : Bool) (k : Nat) :
    exchanged (afterExchanges u clockTx cs k) 0xFF#8 cs = afterExchanges u clockTx cs (k + 1) :=
  exchanged_afterExchanges u clockTx cs k

/-- `s` with CLOCK started and `m` bytes sent, so in phase CLK(m + 1); the exchanges left out. -/
def clkPhase (s : State) (m : Nat) : State :=
  { s with
    latch := { s.latch with n := s.regs.clkN, cs := s.regs.clkCs }
    phase := .clk, j := BitVec.ofNat 16 m
    status := { busy := true, result := .none, count := BitVec.ofNat 16 m } }

/-- `s` with CLOCK completed, the exchanges left out. -/
def clockEnded (s : State) (j : BitVec 16) : State :=
  { s with
    latch := { s.latch with n := s.regs.clkN, cs := s.regs.clkCs }
    phase := .idle, j := j
    status := { busy := false, result := .clkDone, count := s.regs.clkN } }

section
variable {s : State} (hs : s.env.sched = [])
include hs

theorem step_clkPhase {m : Nat} (hm : m < s.regs.clkN.toNat) :
    step (afterExchanges (clkPhase s m) clockTx s.regs.clkCs m) = .next
      (if m + 1 < s.regs.clkN.toNat then afterExchanges (clkPhase s (m + 1)) clockTx s.regs.clkCs (m + 1)
       else { afterExchanges (clockEnded s (BitVec.ofNat 16 m)) clockTx s.regs.clkCs (m + 1) with csN := true }) := by
  have hturn := turn_afterExchanges (s := clkPhase s m) hs (by simp [clkPhase]) clockTx s.regs.clkCs m
  have hj : (BitVec.ofNat 16 m).toNat + 1 = m + 1 := by rw [BitVec.toNat_ofNat]; omega
  have hcs : (afterExchanges (clkPhase s m) clockTx s.regs.clkCs m).latch.cs = s.regs.clkCs := rfl
  have hstep := clockByteIsSent _ (m + 1) hturn rfl hj hm
  rw [hcs, exchanged_clockTx] at hstep
  exact hstep

/-- Up to CLK(m + 1). -/
theorem run_clk (hn : s.regs.clkN ≠ 0#16) {m : Nat} (hm : m < s.regs.clkN.toNat) :
    Host.Core.run core m (startClock s) = .next (afterExchanges (clkPhase s m) clockTx s.regs.clkCs m) := by
  induction m with
  | zero => rw [afterExchanges_zero, startClock, if_neg hn]; rfl
  | succ m ih =>
    have hstep := step_clkPhase hs (m := m) (by omega)
    rw [if_pos hm] at hstep
    exact run_succ (ih (by omega)) hstep

end

/-- Settles O28: with N = 0 the start completes; else all bytes but the last by induction, and the last completes. -/
theorem clockSendsExactlyN : Obligations.ClockSendsExactlyN := by
  intro s t hb hs hstart
  by_cases hn : s.regs.clkN = 0#16
  · obtain ⟨j, hdone⟩ := clockOfNoBytesCompletesAtOnce s hb hn
    cases hstart.symm.trans hdone
    rw [hn]
    exact ⟨_, rfl, rfl, rfl, rfl, by simp [trace], rfl, rfl, rfl, rfl, rfl, rfl, rfl, rfl, rfl⟩
  · cases hstart.symm.trans (exec_clock_idle hb)
    obtain ⟨m, hm⟩ : ∃ m, s.regs.clkN.toNat = m + 1 := Nat.exists_eq_succ_of_ne_zero (by bv_omega)
    have hstep := step_clkPhase hs (m := m) (by omega)
    rw [if_neg (by omega)] at hstep
    rw [hm]
    exact ⟨_, run_succ (run_clk hs hn (by omega)) hstep, rfl, rfl, rfl, rfl, rfl, rfl, rfl, rfl, rfl, rfl, rfl, rfl,
      rfl⟩

end Sys2Proof.Machine
end

section
/-! Every running operation ends (42_bus_clock_and_access.md R213, 60_exceptions.md R236): each exchange leaves fewer
for the operation to make. -/

namespace Sys2Proof.Machine

/-- How many exchanges the running operation makes at most from the start of its phase on, whatever the card answers:
those of the phase, and all the polls or the whole block that can follow it. -/
def exchangeBound (s : State) : Nat :=
  match s.phase with
  | .idle => 0
  | .cmdPrime => 17
  | .cmdPkt => 16
  | .cmdPoll => 10
  | .tokHunt => 1514
  | .payload => 514
  | .clk => s.latch.n.toNat

/-- How many are left of them after those made in the phase. -/
def exchangesLeft (s : State) : Nat := exchangeBound s - s.j.toNat

theorem exchangeBound_lt (s : State) : exchangeBound s < 65536 := by
  unfold exchangeBound
  split
  case h_7 => exact s.latch.n.isLt
  all_goals decide

/-- The invariant leaves a running operation at least the exchange it makes next. -/
theorem j_lt_exchangeBound {s : State} (hok : s.phaseOk = true) (hp : s.phase ≠ .idle) :
    s.j.toNat < exchangeBound s := by
  unfold exchangeBound
  cases h : s.phase with
  | idle => exact absurd h hp
  | cmdPrime => simp [((phaseOk_cmdPrime h).mp hok).1]
  | cmdPkt => exact Nat.lt_trans ((phaseOk_cmdPkt h).mp hok).1 (by decide : 6 < 16)
  | cmdPoll => exact ((phaseOk_cmdPoll h).mp hok).1
  | tokHunt => exact Nat.lt_trans ((phaseOk_tokHunt h).mp hok).1 (by decide : 1000 < 1514)
  | payload => exact ((phaseOk_payload h).mp hok).1
  | clk => exact ((phaseOk_clk h).mp hok).1

/-- Counting on in the same phase leaves one exchange fewer. -/
theorem exchangesLeft_lt_of_advance {s t : State} (hj : s.j.toNat < exchangeBound s)
    (hbound : exchangeBound t = exchangeBound s) (hcount : t.j = s.j + 1#16) : exchangesLeft t < exchangesLeft s := by
  rw [exchangesLeft, exchangesLeft, hbound, hcount, toNat_succ hj (exchangeBound_lt s)]
  omega

/-- Every exchange leaves fewer: it completes, counts on in its phase, or enters a phase of a smaller bound. -/
theorem BlockMove.exchangesLeft_lt {rx : Byte} {s t : State} (hok : s.phaseOk = true) (h : BlockMove rx s t) :
    exchangesLeft t < exchangesLeft s := by
  have hj := j_lt_exchangeBound hok h.running
  cases h with
  | response | noResponse | noToken | blockEnd | clockEnd =>
    simpa [exchangesLeft, exchangeBound] using hj
  | packet | poll | hunt | store | trailer | clock => exact exchangesLeft_lt_of_advance hj rfl rfl
  | prime hp =>
    obtain ⟨hzero, _⟩ := (phaseOk_cmdPrime hp).mp hok
    simp [exchangesLeft, exchangeBound, hp, hzero]
  | packetEnd hp _ =>
    obtain ⟨hlt, _⟩ := (phaseOk_cmdPkt hp).mp hok
    have hpolls : 10 < 16 - s.j.toNat := by omega
    simpa [exchangesLeft, exchangeBound, hp] using hpolls
  | token hp _ =>
    obtain ⟨hlt, _⟩ := (phaseOk_tokHunt hp).mp hok
    have hblock : 514 < 1514 - s.j.toNat := by omega
    simpa [exchangesLeft, exchangeBound, hp] using hblock

/-- Only a completion leads to IDLE, and a completion reports (60_exceptions.md R231). -/
theorem BlockMove.result_ne_none_of_idle {rx : Byte} {s t : State} (h : BlockMove rx s t) (ht : t.phase = .idle) :
    t.status.result ≠ .none := by
  have hr := h.running
  cases h with
  | response | noResponse | noToken | blockEnd | clockEnd => exact Result.noConfusion
  | prime | packetEnd | token => cases ht
  | packet | poll | hunt | store | trailer | clock => exact absurd ht hr

/-- The block left to itself ends its operation, one exchange a step. -/
theorem run_to_idle {s : State} (hi : s.inv = true) (hs : s.env.sched = []) (hp : s.phase ≠ .idle) :
    ∃ k t, Host.Core.run core k s = .next t ∧ t.inv = true ∧ t.phase = .idle ∧ t.status.result ≠ .none ∧
      t.history.length = s.history.length + k ∧ k ≤ exchangesLeft s := by
  induction hn : exchangesLeft s using Nat.strong_induction_on generalizing s with
  | _ n ih =>
    subst hn
    have hstep := step_running hs hp
    have hmove := blockStep_blockMove (nextRx s) (s := dropRx s) (by simpa using hp)
    generalize blockStep (nextRx s) (dropRx s) = u at hstep hmove
    have hinv : (dropRx s).inv = true := (inv_dropRx s).trans hi
    obtain ⟨_, _, hok, _⟩ := (inv_iff_running hmove.running).mp hinv
    have hless : exchangesLeft u < exchangesLeft s := by
      simpa [exchangesLeft, exchangeBound] using hmove.exchangesLeft_lt hok
    have hone : u.history.length = s.history.length + 1 := by simp [hmove.history_eq]
    by_cases hidle : u.phase = .idle
    · exact ⟨1, u, run_next 0 hstep, blockMove_inv hinv hmove, hidle, hmove.result_ne_none_of_idle hidle, hone,
        by omega⟩
    · obtain ⟨k, t, hrun, hti, htp, hres, hlen, hk⟩ :=
        ih _ hless (blockMove_inv hinv hmove) (by simp [hmove.env_eq, hs]) hidle rfl
      exact ⟨k + 1, t, (run_next k hstep).trans hrun, hti, htp, hres, by omega, by omega⟩

/-- Settles O54: what is left of a phase's bound is no more than the bound. -/
theorem runningOperationEndsWithinItsBound : Obligations.RunningOperationEndsWithinItsBound := by
  intro s hi hs hb
  have hp : s.phase ≠ .idle := fun hidle => by simp [((inv_iff_idle hidle).mp hi).1] at hb
  obtain ⟨k, t, hrun, hti, htp, hres, hlen, hk⟩ := run_to_idle hi hs hp
  obtain ⟨hdone, _⟩ := (inv_iff_idle htp).mp hti
  have hbound : k ≤ exchangeBound s := hk.trans (Nat.sub_le _ _)
  exact ⟨k, t, hrun, hdone, htp, hres, hlen, hbound⟩

end Sys2Proof.Machine
end

section
/-! Reads of each register and of DATA (42_bus_clock_and_access.md R208 to R210, R214): what each returns, and which
model fault it records. -/

namespace Sys2Proof.Machine

open Claim

/-! ### Reads of the registers -/

/-- A read that raises no model fault returns the value the machine shows it, STATUS while BUSY = 1 too. -/
theorem step_read_unfaulted {s : State} {off n : Nat} {rest : List HostAct} (h : HostDoes s (.read off n) rest)
    (hf : readFault off n s = none) :
    step s = .next (answered (acted s rest) off n (readValue off n (acted s rest))) := by
  have hf' : readFault off n (acted s rest) = none := hf
  rw [step_read h, memRead, hf']
  rfl

/-- Settles O33: no read of these four can fault. -/
theorem registerReadsReturnTheFields : Obligations.RegisterReadsReturnTheFields := by
  intro s rest
  exact ⟨fun h => step_read_unfaulted h rfl, fun h => step_read_unfaulted h rfl, fun h => step_read_unfaulted h rfl,
    fun h => step_read_unfaulted h rfl⟩

theorem readFault_resp (s : State) :
    readFault 0x010 4 s =
      if s.status.busy then some .readBusy else if s.respW then none else some .unwritten := rfl

/-- Settles O35: the two faults in their order, and else the register. -/
theorem respRead : Obligations.RespRead := by
  intro s rest h
  refine ⟨fun hb => ⟨_, step_read_fault h ?_⟩, fun hb hw => ⟨_, step_read_fault h ?_⟩,
    fun hb hw => step_read_unfaulted h ?_⟩
  · rw [readFault_resp, if_pos hb]
  · simp [readFault_resp, hb, hw]
  · simp [readFault_resp, hb, hw]

theorem result_none_of_busyOk {s : State} (hok : s.busyOk = true) (hb : s.status.busy = true) :
    s.status.result = .none := by
  simp only [State.busyOk, Bool.and_eq_true] at hok
  obtain ⟨⟨hphase, hresult⟩, _⟩ := hok
  have hp : s.phase ≠ .idle := by simpa [hb] using hphase
  simpa [hp] using hresult

theorem busyCount_idle {s : State} (hb : s.status.busy = false) : busyCount s = s.status.count := by
  simp [busyCount, hb]

/-- The draw behind COUNT is brought below the final COUNT (42_bus_clock_and_access.md R208; log 5). -/
theorem busyCount_le {s : State} (hb : s.status.busy = true) : (busyCount s).toNat ≤ finalCount s := by
  rw [busyCount, if_pos hb, BitVec.toNat_ofNat]
  exact (Nat.mod_le _ _).trans (Nat.le_of_lt_succ (Nat.mod_lt _ (Nat.succ_pos _)))

/-- A host act taken leaves what the running operation's COUNT will be. -/
theorem finalCount_acted (s : State) (rest : List HostAct) : finalCount (acted s rest) = finalCount s :=
  finalCount_congr (rxAt_congr rfl rfl) rfl rfl rfl rfl

theorem readValue_status (s : State) (rest : List HostAct) :
    readValue 0x00C 4 (acted s rest) = statusWord (busyCount (acted s rest)) s.status.result s.status.busy := rfl

/-- Settles O34: the word of the three fields, with the draw for COUNT while BUSY = 1. -/
theorem statusReadShowsTheFields : Obligations.StatusReadShowsTheFields := by
  intro s rest h hok
  have hword := step_read_unfaulted h rfl
  constructor <;> intro hb
  · have hcount : busyCount (acted s rest) = s.status.count := busyCount_idle hb
    rw [readValue_status, hcount, hb] at hword
    exact hword
  · refine ⟨busyCount (acted s rest), (busyCount_le hb).trans_eq (finalCount_acted s rest), ?_⟩
    rw [readValue_status, hb, result_none_of_busyOk hok hb] at hword
    exact hword

/-! ### Reads of DATA (20_memory.md R77, R82) -/

theorem Memory.readLE_lt (m : List Host.Cell) (off n : Nat) : (Memory.readLE m off n).toNat < 2 ^ (8 * n) := by
  induction n generalizing off with
  | zero => simp [Memory.readLE]
  | succ n ih =>
    have hrest : (Memory.readLE m (off + 1) n).toNat < 2 ^ (8 * n) := ih (off + 1)
    have hbyte : (Memory.read m off).toNat < 2 ^ 8 := (Memory.read m off).isLt
    have hpow : 2 ^ (8 * (n + 1)) = 2 ^ (8 * n) * 2 ^ 8 := Nat.pow_add ..
    have hone : 1 ≤ 2 ^ (8 * n) := Nat.one_le_two_pow
    rw [Memory.readLE, BitVec.toNat_or, BitVec.toNat_shiftLeft, Nat.shiftLeft_eq]
    apply Nat.or_lt_two_pow
    · exact (Nat.mod_le _ _).trans_lt (by omega)
    · rw [BitVec.toNat_setWidth_of_le (by decide)]
      omega

/-- Byte `i` of a little-endian read is the byte at its own offset. -/
theorem Memory.readLE_extractLsb' (m : List Host.Cell) (off : Nat) {n i : Nat} (hi : i < n) (hn : n ≤ 4) :
    (Memory.readLE m off n).extractLsb' (8 * i) 8 = Memory.read m (off + i) := by
  induction n generalizing off i with
  | zero => omega
  | succ n ih =>
    cases i with
    | zero =>
      apply BitVec.eq_of_getLsbD_eq
      intro j hj
      have hword : j < 32 := by omega
      simp [Memory.readLE, hj, hword]
    | succ i =>
      have hrest := ih (off + 1) (i := i) (by omega) (by omega)
      rw [show off + (i + 1) = off + 1 + i by omega, ← hrest]
      apply BitVec.eq_of_getLsbD_eq
      intro j hj
      have hword : 8 * (i + 1) + j < 32 := by omega
      have hpast : ¬ 8 * (i + 1) + j < 8 := by omega
      have hsame : 8 * (i + 1) + j - 8 = 8 * i + j := by omega
      have hlow : 8 * i + j < 32 := by omega
      have hbyte : (Memory.read m off).getLsbD (8 * (i + 1) + j) = false := BitVec.getLsbD_of_ge _ _ (by omega)
      simp [Memory.readLE, hj, hword, hpast, hsame, hlow, hbyte]

theorem readFault_data {off n : Nat} (h : dataAccess off n = true) (s : State) :
    readFault off n s = if s.status.busy then some .readBusy else if s.dataW then none else some .unwritten := by
  have hreg : ¬ regAccess off n = true := by
    rw [regAccess_iff]
    rw [dataAccess_iff] at h
    omega
  rw [readFault, if_neg hreg, if_pos h]

theorem readValue_data {off n : Nat} (h : 0x200 ≤ off) (s : State) :
    readValue off n s = Memory.readLE s.data off n := by
  unfold readValue
  split
  case h_7 => rfl
  all_goals omega

/-- Settles O36: the two faults in their order, and else the little-endian word of the bytes. -/
theorem dataRead : Obligations.DataRead := by
  intro s k n rest h hk hn hal
  have hdata : dataAccess (0x200 + k) n = true := by
    rw [dataAccess_iff]
    refine ⟨hn, ?_, by omega, by omega⟩
    obtain rfl | rfl | rfl := hn <;> omega
  have hfault := readFault_data hdata s
  refine ⟨fun hb => ⟨_, step_read_fault h ?_⟩, fun hb hw => ⟨_, step_read_fault h ?_⟩, fun hb hw => ?_⟩
  · rw [hfault, if_pos hb]
  · simp [hfault, hb, hw]
  · have hstep := step_read_unfaulted h (by simp [hfault, hb, hw])
    rw [readValue_data (by omega)] at hstep
    exact ⟨_, hstep, fun i hi => Memory.readLE_extractLsb' _ _ hi (by omega), Memory.readLE_lt _ _ _⟩

end Sys2Proof.Machine
end

section
/-! Writes to each register and to DATA (42_bus_clock_and_access.md R204 to R207, R211): what each changes or starts,
and which model fault it records. -/

namespace Sys2Proof.Machine

open Claim

/-! ### Writes to what is read-only, and to CMD, ARG and CLKCNT -/

theorem writeFault_readOnly {off n : Nat} (h : off = 0x00C ∨ off = 0x010 ∨ 0x018 ≤ off) (w : Word) :
    writeFault off n w = some .access := by
  by_cases hreg : regAccess off n = true
  · obtain ⟨_, _, hlast⟩ := (regAccess_iff off n).mp hreg
    unfold writeFault
    rw [if_pos hreg]
    obtain rfl | rfl | hpast := h
    · rfl
    · rfl
    · omega
  · exact writeFault_of_not_access hreg w

/-- Settles O38: at these offsets no width and no value is permitted, and none of them is CTRL. -/
theorem readOnlyWritesAreRefused : Obligations.ReadOnlyWritesAreRefused := by
  intro s off n w rest h hoff
  exact step_write_fault h (by omega) (writeFault_readOnly (by omega) w)

theorem cmdReserved_iff (v : Word) :
    cmdReserved v = true ↔ v.extractLsb' 6 2 ≠ 0#2 ∨ v.extractLsb' 16 16 ≠ 0#16 := by
  simp [cmdReserved]

theorem clkReserved_iff (v : Word) : clkReserved v = true ↔ v.extractLsb' 17 15 ≠ 0#15 := by
  simp [clkReserved]

theorem memWrite_cmd (v : Word) (s : State) :
    memWrite 0x004 4 v s = if cmdReserved v then raise .reserved 0x004 (some v) s else writeReg 0x004 v s := by
  have hf : writeFault 0x004 4 v = if cmdReserved v then some .reserved else none := rfl
  rw [memWrite, hf]
  split_ifs <;> rfl

theorem memWrite_clkcnt (v : Word) (s : State) :
    memWrite 0x014 4 v s = if clkReserved v then raise .reserved 0x014 (some v) s else writeReg 0x014 v s := by
  have hf : writeFault 0x014 4 v = if clkReserved v then some .reserved else none := rfl
  rw [memWrite, hf]
  split_ifs <;> rfl

/-- Settles O39: reserved bits are looked at first, and a write to ARG has none. -/
theorem registerWritesSetTheFields : Obligations.RegisterWritesSetTheFields := by
  intro s v rest
  refine ⟨fun h => ?_, fun h => step_write h (by decide), fun h => ?_⟩
  · rw [step_write h (by decide), memWrite_cmd]
    simp only [cmdReserved_iff]
    rfl
  · rw [step_write h (by decide), memWrite_clkcnt]
    simp only [clkReserved_iff]
    rfl

/-! ### Writes to CTRL -/

theorem decode_ctrl_reserved {w : Word} (h : w.extractLsb' 2 30 ≠ 0#30) : decode (.ctrl w) = .error .ctrlReserved :=
  if_pos h

/-- An operation word whose reserved bits are 0 is the operation of its two low bits (30_encoding.md R110). -/
theorem decode_ctrl_operation {w : Word} (h : w.extractLsb' 2 30 = 0#30) :
    decode (.ctrl w) = .ok
      (if w.extractLsb' 0 2 = 0#2 then .nop else if w.extractLsb' 0 2 = 1#2 then .sendCmd
       else if w.extractLsb' 0 2 = 2#2 then .readBlock else .clock) := by
  simp only [decode, decodeCtrl, h, ne_eq, not_true, if_false]
  generalize w.extractLsb' 0 2 = op
  revert op
  decide

/-- While BUSY = 1 every operation word is refused, whichever operation it is (42_bus_clock_and_access.md R204). -/
theorem exec_ctrl_busy {s : State} {w : Word} {i : Instr} (hd : decode (.ctrl w) = .ok i)
    (hb : s.status.busy = true) : exec i s = .next (faulted s .issueBusy 0x000 (some w)) := by
  obtain ⟨hw, _⟩ := decode_ctrl_ok hd
  obtain rfl | rfl | rfl | rfl := decode_ctrl_cases hd <;> cases hw <;>
    exact congrArg Host.Outcome.next (issue_busy hb)

theorem step_writeCtrl_reserved {s : State} {w : Word} {rest : List HostAct}
    (h : HostDoes s (.write 0x000 4 w) rest) (hres : w.extractLsb' 2 30 ≠ 0#30) :
    step s = .next (faulted (acted s rest) .reserved 0x000 (some w)) := by
  obtain ⟨ht, hq⟩ := h
  apply step_host_moved ht
  simp only [fetchHost, popSched_env, hq, popHost_popSched hq, fetchWrite, decode_ctrl_reserved hres]
  rfl

/-- Settles O13: the width, the reserved bits and BUSY in their order, and else the decoded operation. -/
theorem ctrlWriteIsCheckedInOrder : Obligations.CtrlWriteIsCheckedInOrder := by
  intro s n w rest h
  by_cases hn : n = 4
  · subst hn
    rw [if_neg (not_not.mpr rfl)]
    by_cases hres : w.extractLsb' 2 30 = 0#30
    · have hd := decode_ctrl_operation hres
      rw [if_neg (not_not.mpr hres), stepRunsOperationWord s w rest _ h hd]
      by_cases hb : s.status.busy = true
      · rw [if_pos hb, exec_ctrl_busy (s := acted s rest) hd hb]
      · rw [if_neg hb]
        split_ifs <;> rfl
    · rw [if_pos hres, step_writeCtrl_reserved h hres]
  · rw [if_pos hn]
    exact (badAccessIsRefused s 0x000 n rest fun ⟨h4, _⟩ => hn h4).2 w h

end Sys2Proof.Machine
end

section
/-! Every step is taken, and what steps keep of the fault record and of a final state (60_exceptions.md R230 to R238). -/

namespace Sys2Proof.Machine

/-! ### Every step is taken -/

/-- No instruction stops: there is no trap (60_exceptions.md R230). -/
theorem exec_next (i : Instr) (s : State) : ∃ t, exec i s = .next t := by
  cases i <;> exact ⟨_, rfl⟩

/-- Settles O44: a turn that runs an instruction goes on from it, and a turn that runs none is done. -/
theorem everyStepIsTaken : Obligations.EveryStepIsTaken := by
  intro s
  unfold step
  cases fetch s with
  | run i t => exact exec_next i t
  | moved t => exact ⟨t, rfl⟩

/-! ### The fault record -/

theorem startClock_faults_env (s : State) : (startClock s).faults = s.faults ∧ (startClock s).env = s.env := by
  unfold startClock
  dsimp only
  split_ifs <;> exact ⟨rfl, rfl⟩

/-- A host's turn but reset records at most one model fault, and clears none (60_exceptions.md R235, R238). -/
theorem HostMove.faults_eq {s t : State} (h : HostMove s t) (hn : s.env.hostQ.head? ≠ some .reset) :
    t.faults = s.faults ∨ ∃ r, t.faults = s.faults ++ [r] := by
  cases h with
  | access _ _ _ hf => exact hf
  | sendCmd | readBlock => exact .inl rfl
  | clock _ r e => exact .inl (startClock_faults_env { s with regs := r, env := e }).1
  | reset hq _ => exact absurd hq hn

/-- Settles O47: only a host's access records a fault, and no exchange touches the record. -/
theorem faultsStayUntilReset : Obligations.FaultsStayUntilReset := by
  intro s t h
  cases ht : turn s with
  | host =>
    by_cases hq : s.env.hostQ.head? = some .reset
    · exact .inl ⟨rfl, hq⟩
    · exact .inr ((step_hostMove ht h).faults_eq hq)
  | block =>
    obtain ⟨_, rfl⟩ | hm := step_block_cases ht h
    · exact .inr (.inl rfl)
    · exact .inr (.inl (by simpa using hm.faults_eq))

/-! ### The host's pending acts -/

theorem issue_env {start : State → State} (hstart : ∀ s, (start s).env = s.env) (w : Word) (s : State) :
    (issue w start s).env = s.env := by
  cases hb : s.status.busy with
  | false => rw [issue_idle hb, hstart]
  | true => rw [issue_busy hb, raise_env]

/-- An operation word changes nothing outside the block. -/
theorem exec_ctrl_env {s t : State} {w : Word} {i : Instr} (hd : decode (.ctrl w) = .ok i)
    (h : exec i s = .next t) : t.env = s.env := by
  obtain rfl | rfl | rfl | rfl := decode_ctrl_cases hd <;> cases h
  · exact issue_env (start := id) (fun _ => rfl) _ s
  · exact issue_env (start := startSendCmd) (fun _ => rfl) _ s
  · exact issue_env (start := startReadBlock) (fun _ => rfl) _ s
  · exact issue_env (fun s => (startClock_faults_env s).2) _ s

/-- A packet transaction leaves its WAIT for the host (30_encoding.md R118). -/
theorem framePacket_hostQ (index : BitVec 6) (arg : BitVec 32) (crc : BitVec 8) (s : State) :
    (framePacket index arg crc s).env.hostQ = .wait :: s.env.hostQ :=
  congrArg (HostAct.wait :: Env.hostQ ·)
    (issue_env (start := startSendCmd) (fun _ => rfl) 1#32 (loadOperands index arg crc s))

theorem memRead_hostQ (off n : Nat) (s : State) : (memRead off n s).env.hostQ = s.env.hostQ := by
  obtain ⟨_, _, hm⟩ | ⟨_, hm⟩ := memRead_cases off n s <;> rw [hm] <;> rfl

theorem fetchHost_moved_hostQ {s u : State} (hf : fetchHost s = .moved u) : u.env.hostQ ⊆ s.env.hostQ := by
  have htail : s.env.hostQ.tail ⊆ s.env.hostQ := List.tail_subset _
  obtain ⟨_, h⟩ | ⟨_, _, _, _, h⟩ | ⟨_, _, _, _, _, _, h⟩ | ⟨_, h⟩ | ⟨_, _, _, _, _, h⟩ | ⟨_, _, _, _, _, h⟩ |
    ⟨_, _, h⟩ | ⟨_, _, h⟩ := fetchHost_cases s <;> cases hf.symm.trans h
  · exact List.Subset.refl _
  · rwa [memRead_hostQ]
  · exact htail
  · exact htail
  · split
    · exact List.Subset.refl _
    · exact htail
  · exact htail

/-- No step gives the host an act to do but the WAIT of a packet transaction. -/
theorem step_hostQ {s t : State} (h : step s = .next t) : t.env.hostQ ⊆ .wait :: s.env.hostQ := by
  have hkeep : s.env.hostQ ⊆ .wait :: s.env.hostQ := List.subset_cons_self _ _
  have htail : s.env.hostQ.tail ⊆ s.env.hostQ := List.tail_subset _
  cases ht : turn s with
  | block =>
    obtain ⟨_, rfl⟩ | hm := step_block_cases ht h
    · exact hkeep
    · simp [hm.env_eq]
  | host =>
    cases hf : fetchHost (popSched s) with
    | moved u =>
      cases (step_host_moved ht hf).symm.trans h
      exact List.Subset.trans (fetchHost_moved_hostQ hf) hkeep
    | run i u =>
      rw [step_host_run ht hf] at h
      obtain ⟨rfl, ⟨w, hd⟩ | ⟨index, arg, crc, rfl⟩⟩ := fetchHost_run_cases hf
      · rw [exec_ctrl_env hd h]
        exact List.Subset.trans htail hkeep
      · cases (exec_packetInstr index arg crc _).symm.trans h
        rw [framePacket_hostQ]
        exact List.cons_subset_cons _ htail

/-! ### Runs of a state with a fault recorded -/

/-- The record extends `f`, and nothing pending clears it. -/
def KeepsFaults (f : List FaultRecord) (s : State) : Prop :=
  (∃ more, s.faults = f ++ more) ∧ HostAct.reset ∉ s.env.hostQ

theorem step_keepsFaults {f : List FaultRecord} {s t : State} (hs : KeepsFaults f s) (h : step s = .next t) :
    KeepsFaults f t := by
  obtain ⟨⟨more, hmore⟩, hreset⟩ := hs
  refine ⟨?_, fun hmem => by simpa [hreset] using step_hostQ h hmem⟩
  obtain ⟨_, hq⟩ | hsame | ⟨r, hr⟩ := faultsStayUntilReset s t h
  · exact absurd (List.mem_of_mem_head? hq) hreset
  · exact ⟨more, hsame.trans hmore⟩
  · exact ⟨more ++ [r], by rw [hr, hmore, List.append_assoc]⟩

/-- Settles O48: every step keeps the records there are, so no state after them is without one. -/
theorem faultedRunNeverEnds : Obligations.FaultedRunNeverEnds := by
  intro s t hfault hreset hrun
  obtain ⟨⟨more, hmore⟩, _⟩ :=
    reaches_keeps (fun _ _ => step_keepsFaults (f := s.faults)) hrun ⟨⟨[], (List.append_nil _).symm⟩, hreset⟩
  have hnone : s.faults ≠ [] := fun hf => by simp [State.noFault, hf] at hfault
  have hfinal : t.final ≠ true := fun hf => by
    obtain ⟨_, _, hnil⟩ := (final_iff t).mp hf
    exact hnone (List.append_eq_nil_iff.mp (hmore.symm.trans hnil)).1
  exact ⟨⟨more, hmore⟩, Bool.eq_false_iff.mpr hfinal, fun ⟨_, hf⟩ => hfinal hf⟩

/-! ### Runs of a final state -/

/-- With nothing left for the host and the block in IDLE, whoever's turn it is only uses it up (70_reset_and_hazards.md
R262, R263). -/
theorem step_quiet {s : State} (hq : s.env.hostQ = []) (hp : s.phase = .idle) : step s = .next (popSched s) := by
  cases ht : turn s with
  | block => exact step_block_idle ht hp
  | host => exact step_host_moved ht (by simp [fetchHost, hq])

/-- `s` with another list of turns. -/
def withSched (sched : List Agent) (s : State) : State := { s with env := { s.env with sched := sched } }

/-- Settles O49: every state of such a run is the first one with another list of turns. -/
theorem finalStatesStay : Obligations.FinalStatesStay := by
  intro s t hfinal hrun
  obtain ⟨hq, hp, _⟩ := (final_iff s).mp hfinal
  have hstep : ∀ u v, (∃ sched, u = withSched sched s) → step u = .next v → ∃ sched, v = withSched sched s := by
    rintro _ v ⟨sched, rfl⟩ h
    cases (step_quiet (s := withSched sched s) hq hp).symm.trans h
    exact ⟨sched.tail, rfl⟩
  obtain ⟨sched, rfl⟩ := reaches_keeps hstep hrun ⟨s.env.sched, rfl⟩
  exact ⟨hfinal, sched, rfl⟩

end Sys2Proof.Machine
end

section
/-! The reset input and the state it leaves (10_state.md R51, 70_reset_and_hazards.md R260, R261). -/

namespace Sys2Proof.Machine

open Claim

theorem step_reset {s : State} {rest : List HostAct} (h : HostDoes s .reset rest) :
    step s = .next (hardReset (acted s rest)) := by
  obtain ⟨ht, hq⟩ := h
  apply step_host_moved ht
  simp only [fetchHost, popSched_env, hq, popHost_popSched hq]

/-- Settles O42: the turn takes the act and is a reset of the block, which keeps only the environment. -/
theorem resetInputAbortsTheOperation : Obligations.ResetInputAbortsTheOperation :=
  fun _ _ h => step_reset h

/-- Settles O41: either way the state is a reset one up to its environment, which R51 does not speak of. -/
theorem resetLeavesTheSpecifiedValues : Obligations.ResetLeavesTheSpecifiedValues := by
  intro t ht
  have hreset : ∃ u, t = hardReset u := by
    obtain rfl | ⟨s, rest, h, hstep⟩ := ht
    · exact ⟨State.reset, rfl⟩
    · cases (step_reset h).symm.trans hstep
      exact ⟨acted s rest, rfl⟩
  obtain ⟨u, rfl⟩ := hreset
  exact ⟨rfl, rfl, rfl, rfl, rfl, rfl, rfl, rfl⟩

end Sys2Proof.Machine
end
